-- ==== Sys2Proof/Word.lean ====
section
/-! DEFINITION. The machine's word types: bytes, 16-bit words, 24-bit addresses, and the two operand widths
(R8, R10, R11 of 00_scope.md). -/

namespace Sys2Proof

/-- One byte: the unit of every memory access (R70, R77 of 20_memory.md). -/
abbrev Byte := BitVec 8

/-- A 16-bit word: C, X, Y, S, D and PC, and every operand value, zero-extended (R11 of 00_scope.md). -/
abbrev Word := BitVec 16

/-- A 24-bit address, bank:offset (R71 of 20_memory.md). -/
abbrev Addr := BitVec 24

/-- The operand width `w` of an operation, 8 or 16 bits (R11 of 00_scope.md, R40 of 10_state.md). -/
inductive Width where
  | w8
  | w16
deriving DecidableEq, Repr

/-- The two live operand widths: `m` for the accumulator and memory, `x` for the index registers (R40). -/
structure Widths where
  m : Width
  x : Width
deriving DecidableEq, Repr

end Sys2Proof
end

