-- ==== Sys2Proof/Machine/Bits.lean ====
section
/-! DEFINITION. Bit fields, byte order and sign extension (R10, R11 of 00_scope.md, R73 of 20_memory.md). -/

namespace Sys2Proof

/-- `v[7:0]`. -/
def lo (v : Word) : Byte := v.extractLsb' 0 8

/-- `v[15:8]`. -/
def hi (v : Word) : Byte := v.extractLsb' 8 8

/-- `h:l`, the word with high byte `h` and low byte `l`. -/
def word (h l : Byte) : Word := h ++ l

/-- `bank:offset` (R10). -/
def addrOf (bank : Byte) (offset : Word) : Addr := bank ++ offset

/-- The low byte of a 24-bit operand. -/
def alLo (al : Addr) : Byte := al.extractLsb' 0 8

/-- The high byte of the offset of a 24-bit operand. -/
def alHi (al : Addr) : Byte := al.extractLsb' 8 8

/-- The bank byte `al[23:16]`. -/
def alBank (al : Addr) : Byte := al.extractLsb' 16 8

/-- The offset `al[15:0]`. -/
def alOffset (al : Addr) : Word := al.extractLsb' 0 16

/-- `zext_16(b)` (R11). -/
def zext (b : Byte) : Word := b.setWidth 16

/-- `sext_16(b)`: `b` if `b < $80`, else `b + $FF00` (R11). -/
def sext (b : Byte) : Word := b.signExtend 16

/-- The number of bits of a width. -/
def Width.bits : Width → Nat
  | .w8 => 8
  | .w16 => 16

/-- `mask(w) = 2^w - 1` (R11). -/
def Width.mask : Width → Word
  | .w8 => 0x00FF
  | .w16 => 0xFFFF

/-- `sign(w) = 2^(w-1)` (R11). -/
def Width.sign : Width → Word
  | .w8 => 0x0080
  | .w16 => 0x8000

/-- `trunc_w(v) = v mod 2^w`, zero-extended to 16 bits (R11). -/
def Width.trunc : Width → Word → Word
  | .w8, v => zext (lo v)
  | .w16, v => v

end Sys2Proof
end

