-- ==== Sys2Proof/Machine/Flags.lean ====
section
/-! DEFINITION. The bits of P (R37 of 10_state.md) and the ALU: every result and flag computation of
41_alu.md, once. The instruction rules call these primitives and never restate them (R170). Operands are already
truncated to the width `w`. -/

namespace Sys2Proof.Machine

/-- The flags of P (R37). -/
inductive Flag where
  | n
  | v
  | m
  | x
  | d
  | i
  | z
  | c
deriving DecidableEq, Repr

/-- The bit of P that a flag is (R37). -/
def Flag.bit : Flag → Nat
  | .n => 7
  | .v => 6
  | .m => 5
  | .x => 4
  | .d => 3
  | .i => 2
  | .z => 1
  | .c => 0

/-- The byte with only the flag's bit set. -/
def Flag.mask (f : Flag) : Byte := 1#8 <<< f.bit

/-- The value of a flag in P. -/
def flagOf (p : Byte) (f : Flag) : Bool := p.getLsbD f.bit

/-- P with one flag set to `b` and every other bit kept (R46). -/
def withFlag (p : Byte) (f : Flag) (b : Bool) : Byte :=
  if b then p ||| f.mask else p &&& ~~~f.mask

/-- `setNZ(v, w)` (R15 of 00_scope.md). -/
def setNZ (v : Word) (w : Width) (p : Byte) : Byte :=
  withFlag (withFlag p .z (w.trunc v == 0)) .n (v.getLsbD (w.bits - 1))

/-- What an addition or subtraction gives: the result, carry, overflow, and the half-carry that no instruction
stores (R181, D22). -/
structure AluOut where
  result : Word
  c : Bool
  v : Bool
  h : Bool
deriving DecidableEq, Repr

/-- `HalfCarryAdd(a, b, c)` (R181). -/
def halfCarryAdd (a b : Word) (c : Bool) : Bool :=
  decide ((a &&& 0xF).toNat + (b &&& 0xF).toNat + c.toNat > 0xF)

/-- `HalfBorrowSub(a, b, c)` (R181). -/
def halfBorrowSub (a b : Word) (c : Bool) : Bool :=
  decide ((a &&& 0xF).toNat < (b &&& 0xF).toNat + (1 - c.toNat))

/-- The signed overflow of an addition of `a` and `b` with the result `r`: the operands share a sign and the
result's differs (R172). -/
def addOverflow (w : Width) (a b r : Word) : Bool := ~~~(a ^^^ b) &&& (a ^^^ r) &&& w.sign != 0

/-- The signed overflow of `a - b` with the result `r` (R173). -/
def subOverflow (w : Width) (a b r : Word) : Bool := (a ^^^ b) &&& (a ^^^ r) &&& w.sign != 0

/-- `AddBin` (R172). -/
def addBin (w : Width) (a b : Word) (c : Bool) : AluOut :=
  let sum := a.toNat + b.toNat + c.toNat
  let result := w.trunc (BitVec.ofNat 16 sum)
  { result := result
    c := decide (sum > w.mask.toNat)
    v := addOverflow w a b result
    h := halfCarryAdd a b c }

/-- `SubBin` (R173): the carry is "no borrow", the borrow-in is `1 - c`. -/
def subBin (w : Width) (a b : Word) (c : Bool) : AluOut :=
  let diff : Int := (a.toNat : Int) - (b.toNat : Int) - (1 - (c.toNat : Int))
  let result := w.trunc (BitVec.ofInt 16 diff)
  { result := result
    c := decide (diff ≥ 0)
    v := subOverflow w a b result
    h := halfBorrowSub a b c }

/-- The running values of a decimal addition or subtraction (R182, R183): `r`, the nibble carry `k`, and V. -/
structure DecimalAcc where
  r : Int
  k : Nat
  v : Bool
deriving DecidableEq, Repr

/-- One round of the loops of R182 and R183, for nibble `i`: `adjust s r` is the rule's decimal adjustment of
`r` at shift `s`. V is taken before the adjustment of the last nibble. -/
def decimalNibble (w : Width) (a b : Word) (adjust : Nat → Nat → Int) (acc : DecimalAcc) (i : Nat) : DecimalAcc :=
  let s := 4 * i
  let r := (a.toNat &&& 0xF <<< s) + (b.toNat &&& 0xF <<< s) + acc.k <<< s + (acc.r % 2 ^ s).toNat
  let v := if i = w.bits / 4 - 1 then addOverflow w a b (BitVec.ofNat 16 r) else acc.v
  let r' := adjust s r
  { r := r', k := if r' ≥ 2 ^ (s + 4) then 1 else 0, v := v }

/-- The loops of R182 and R183 over all nibbles, low nibble first. -/
def decimalLoop (w : Width) (a b : Word) (c : Bool) (adjust : Nat → Nat → Int) : DecimalAcc :=
  (List.range (w.bits / 4)).foldl (decimalNibble w a b adjust) { r := 0, k := c.toNat, v := false }

/-- The adjustment of R182: a nibble that exceeds 9 gains 6. -/
def addAdjust (s r : Nat) : Int := if r > 10 <<< s - 1 then r + 6 <<< s else r

/-- The adjustment of R183: a nibble without a carry out loses 6. -/
def subAdjust (s r : Nat) : Int := if r ≤ 1 <<< (s + 4) - 1 then (r : Int) - ((6 <<< s : Nat) : Int) else r

/-- `AddDec` (R182). -/
def addDec (w : Width) (a b : Word) (c : Bool) : AluOut :=
  let acc := decimalLoop w a b c addAdjust
  { result := w.trunc (BitVec.ofInt 16 acc.r), c := acc.k == 1, v := acc.v, h := halfCarryAdd a b c }

/-- `SubDec` (R183), over `b' = ~b & mask(w)`. -/
def subDec (w : Width) (a b : Word) (c : Bool) : AluOut :=
  let acc := decimalLoop w a (~~~b &&& w.mask) c subAdjust
  { result := w.trunc (BitVec.ofInt 16 acc.r), c := acc.k == 1, v := acc.v, h := halfBorrowSub a b c }

/-- `Cmp` (R174) on P: C, Z and N from `a - b`, V unchanged. -/
def cmp (w : Width) (a b : Word) (p : Byte) : Byte :=
  let r := w.trunc (a - b)
  withFlag (withFlag (withFlag p .c (decide (b.toNat ≤ a.toNat))) .z (a == b)) .n (r.getLsbD (w.bits - 1))

/-- What a shift or rotate gives: the result and the bit shifted out. -/
structure ShiftOut where
  result : Word
  c : Bool
deriving DecidableEq, Repr

/-- `Asl` (R176). -/
def asl (w : Width) (v : Word) : ShiftOut :=
  { result := w.trunc (v <<< 1), c := v.getLsbD (w.bits - 1) }

/-- `Lsr` (R176). -/
def lsr (v : Word) : ShiftOut := { result := v >>> 1, c := v.getLsbD 0 }

/-- `Rol` (R177), with the carry-in `cin`. -/
def rol (w : Width) (v : Word) (cin : Bool) : ShiftOut :=
  { result := w.trunc (v <<< 1 ||| BitVec.ofNat 16 cin.toNat), c := v.getLsbD (w.bits - 1) }

/-- `Ror` (R177), with the carry-in `cin`. -/
def ror (w : Width) (v : Word) (cin : Bool) : ShiftOut :=
  { result := v >>> 1 ||| BitVec.ofNat 16 cin.toNat <<< (w.bits - 1), c := v.getLsbD 0 }

/-- `Inc` (R178). -/
def inc (w : Width) (v : Word) : Word := w.trunc (v + 1)

/-- `Dec` (R178). -/
def dec (w : Width) (v : Word) : Word := w.trunc (v - 1)

/-- The Z flag of `BitTest`, `Tsb` and `Trb` (R179, R180). -/
def testZ (a m : Word) (p : Byte) : Byte := withFlag p .z (a &&& m == 0)

/-- The N and V flags of `BitTest` in the memory modes: the top two bits of the operand (R179). -/
def testNV (w : Width) (m : Word) (p : Byte) : Byte :=
  withFlag (withFlag p .n (m.getLsbD (w.bits - 1))) .v (m.getLsbD (w.bits - 2))

/-- The flags that a shift or rotate writes: C, then N and Z of the result (R176, R177). -/
def shiftFlags (w : Width) (o : ShiftOut) (p : Byte) : Byte := setNZ o.result w (withFlag p .c o.c)

/-- The flags that ADC and SBC write: C, V, then N and Z of the result (R243, R244). -/
def addFlags (w : Width) (o : AluOut) (p : Byte) : Byte :=
  setNZ o.result w (withFlag (withFlag p .c o.c) .v o.v)

end Sys2Proof.Machine
end

