-- ==== Sys2Proof/Config.lean ====
section
/-! DEFINITION. What an implementation of the core fixes: the named parameters of R9 (00_scope.md), the
byte that unlisted memory reads as, and the free value behind a read whose answer the spec leaves open. -/

namespace Sys2Proof

/-- `INDEX_NARROW_POLICY` (R9; R42, R43 of 10_state.md; D9): what an 8-bit index write, and a narrowing of
P.X, do to the high byte of X and Y. -/
inductive NarrowPolicy where
  /-- The high byte is kept and inert: the source document's behaviour, the default. -/
  | preserve
  /-- The high byte is 0 whenever P.X = 1: the silicon's behaviour. -/
  | zero
deriving DecidableEq, Repr

/-- A range of addresses: `base`, `base + 1`, ..., `base + size - 1`. -/
structure AddrRange where
  base : Nat
  size : Nat
deriving DecidableEq, Repr

/-- The named parameters of R9 (00_scope.md), "the model takes each of these as an argument". They stand in
State (log 1), so that a claim about every state is a claim about every setting of them. -/
structure Params where
  /-- `INDEX_NARROW_POLICY`. -/
  indexNarrow : NarrowPolicy
  /-- `EMU_DP_PAGE_WRAP`: whether direct-page addresses wrap inside one page when E = 1 and D[7:0] = 0. -/
  emuDpPageWrap : Bool
  /-- `UNIMPLEMENTED_OPCODES`: the opcode bytes the dispatcher treats as unknown. -/
  unimplemented : List Byte
  /-- `UNKNOWN_OPCODE_CYCLES`. -/
  unknownOpcodeCycles : BitVec 32
  /-- `IDLE_STEP_CYCLES`. -/
  idleStepCycles : BitVec 32
  /-- `WAI_WAKE_ON_MASKED_IRQ`. -/
  waiWakeOnMaskedIrq : Bool
  /-- `INTERRUPT_ENTRY_CYCLES_EMU`. -/
  interruptEntryCyclesEmu : BitVec 32
  /-- `INTERRUPT_ENTRY_CYCLES_NATIVE`. -/
  interruptEntryCyclesNative : BitVec 32
  /-- `DIAG_ENABLED`. -/
  diagEnabled : Bool
  /-- The model's own part of the parameter `Mem` (R9, R76, D35): the addresses at which the memory
  collaborator's answers are not those of RAM but free values, one a call. DESIGN CHOICE, log 3. -/
  oracleRanges : List AddrRange
deriving DecidableEq, Repr

/-- The defaults of R9; no address is an oracle address by default (DESIGN CHOICE, unsafe, log 3). -/
def Config.defaultParams : Params where
  indexNarrow := .preserve
  emuDpPageWrap := false
  unimplemented := []
  unknownOpcodeCycles := 2
  idleStepCycles := 1
  waiWakeOnMaskedIrq := true
  interruptEntryCyclesEmu := 7
  interruptEntryCyclesNative := 8
  diagEnabled := false
  oracleRanges := []

/-- What an address that memory does not list reads as. The core owns no memory and the spec gives no RAM
contents; 95_test_vectors.md takes "Memory not listed holds $00". DESIGN CHOICE, unsafe, log 2. -/
def Config.unlistedByte : Byte := 0x00

/-- The free value of R76 and I16: the collaborator's answer at an oracle address, as a function of how many
calls it has received before. Nothing constrains it (log 3). -/
opaque Config.oracleByte : Nat → Byte

end Sys2Proof
end

