-- ==== Sys2Proof/Machine/State.lean ====
section
/-! DEFINITION. The machine's state as plain data: the record of R30 (10_state.md), the memory behind the
collaborator (R70, R71), the events recorded with the host (R13, R356) and the parameters of R9; the reasons a
step can stop, of which the spec has none (R14, R400); and the state after reset (R450, R452). -/

namespace Sys2Proof.Machine

/-- The execution state (R44 of 10_state.md). -/
inductive RunState where
  | running
  /-- After WAI (R365): left by an interrupt or reset. -/
  | waiting
  /-- After STP (R366): left only by reset. -/
  | stopped
deriving DecidableEq, Repr

/-- One call of the memory collaborator (R13 of 00_scope.md): a `read` with the byte it returned, or a `write`
with the byte it was given. -/
inductive BusEvent where
  | read (addr : Addr) (v : Byte)
  | write (addr : Addr) (v : Byte)
deriving DecidableEq, Repr

/-- One record of the diagnostic sink (R356 of 46_system.md): the program bank, the address of the opcode byte
and the opcode. -/
structure DiagRecord where
  pbr : Byte
  pc : Word
  opcode : Byte
deriving DecidableEq, Repr

/-- Memory: the bytes that differ from what an unlisted address reads as, addresses strictly rising. -/
abbrev Memory := List Host.Cell

/-- The whole state of the machine. -/
structure State where
  /-- C, the accumulator: A is its low byte, B its high byte (R31). -/
  c : Word
  /-- X (R32). -/
  x : Word
  /-- Y (R32). -/
  y : Word
  /-- S, the stack pointer (R33). -/
  sp : Word
  /-- D, the direct-page register (R34). -/
  d : Word
  /-- DBR, the data bank register (R35). -/
  dbr : Byte
  /-- PBR, the program bank register (R35). -/
  pbr : Byte
  /-- PC (R36). -/
  pc : Word
  /-- P, the status register N V M X D I Z C (R37). -/
  p : Byte
  /-- E, the emulation bit (R38). -/
  e : Bool
  /-- The run state (R44). -/
  run : RunState
  /-- The cycle counter (R45). -/
  cycles : BitVec 64
  /-- The bytes behind the memory collaborator (R70, R71). -/
  mem : Memory
  /-- Every call made to the collaborator, oldest first (R13, R75; log 4). -/
  trace : List BusEvent
  /-- Every diagnostic record emitted, oldest first (R356; log 4). -/
  diag : List DiagRecord
  /-- The named parameters of R9, which nothing changes (log 1). -/
  params : Params
deriving DecidableEq, Repr

/-- Why a step faults: never. "This core raises no fault and no trap" (R14 of 00_scope.md; R400 of
60_exceptions.md). -/
inductive Fault where
deriving DecidableEq, Repr

/-- Why a step is refused. -/
inductive Refusal where
  /-- Raised by an arm of `exec` whose instruction has no meaning yet: by none of them. Safe: the machine stops
  where the hardware goes on. -/
  | notModelled (mnemonic : String)
deriving DecidableEq, Repr

/-- The outcome of a step: always a next state, since there is no fault (R14, R400). -/
abbrev StepResult := Host.Outcome State Fault Refusal

/-- The machine right after `reset` (R450, R452 of 70_reset_and_hazards.md) with the default parameters of R9
and a memory that lists nothing. PC is the word that this memory gives at $00:FFFC, so $0000, and the trace
holds the two reads of that word (R452; logs 2, 4 and 5). -/
def State.reset : State where
  c := 0x0000
  x := 0x0000
  y := 0x0000
  sp := 0x01FF
  d := 0x0000
  dbr := 0x00
  pbr := 0x00
  pc := 0x0000
  p := 0x34
  e := true
  run := .running
  cycles := 0
  mem := []
  trace := [.read 0x00FFFC 0x00, .read 0x00FFFD 0x00]
  diag := []
  params := Config.defaultParams

end Sys2Proof.Machine
end

