-- ==== Sys2Proof/Machine/Memory.lean ====
section
/-! DEFINITION. Memory as a list of (address, byte) pairs in one canonical form: addresses strictly rising and
below 2^24 (R71 of 20_memory.md), and no entry equal to what an unlisted address reads as (log 2). -/

namespace Sys2Proof.Machine

/-- The byte that memory holds at an address. -/
def Memory.read : Memory → Nat → Byte
  | [], _ => Config.unlistedByte
  | (b, v) :: rest, a => if b = a then v else Memory.read rest a

/-- Memory with no cell at `a`, so that `a` reads as an unlisted address. -/
def Memory.erase : Memory → Nat → Memory
  | [], _ => []
  | (b, u) :: rest, a => if b = a then Memory.erase rest a else (b, u) :: Memory.erase rest a

/-- Memory with the cell `(a, v)` at its place in the rising order. -/
def Memory.set : Memory → Nat → Byte → Memory
  | [], a, v => [(a, v)]
  | (b, u) :: rest, a, v =>
    if a < b then (a, v) :: (b, u) :: rest
    else if b = a then (a, v) :: rest
    else (b, u) :: Memory.set rest a v

/-- Memory with the byte at `a` set to `v`, in canonical form: the byte that an unlisted address reads as is not
listed. -/
def Memory.write (m : Memory) (a : Nat) (v : Byte) : Memory :=
  if v = Config.unlistedByte then Memory.erase m a else Memory.set m a v

/-- The canonical form, for cells from the address `low` up. -/
def Memory.wfFrom : Nat → Memory → Bool
  | _, [] => true
  | low, (b, v) :: rest =>
    decide (low ≤ b) && decide (b < 2 ^ 24) && decide (v ≠ Config.unlistedByte) && Memory.wfFrom (b + 1) rest

/-- The canonical form: equal memories are equal lists. -/
def Memory.wf (m : Memory) : Bool := Memory.wfFrom 0 m

end Sys2Proof.Machine
end

