-- ==== Sys2Proof/Machine/Ops.lean ====
section
/-! DEFINITION. The named operations over registers, memory and the stack that the meanings share
(10_state.md, 20_memory.md, 45_stack_control.md section 1), and interrupt entry and return (60_exceptions.md). -/

namespace Sys2Proof.Machine

/-! ### Status and widths -/

/-- A flag of P (R37). -/
def State.flag (s : State) (f : Flag) : Bool := flagOf s.p f

/-- `wA` (R40). -/
def State.wA (s : State) : Width := if s.flag .m then .w8 else .w16

/-- `wX` (R40). -/
def State.wX (s : State) : Width := if s.flag .x then .w8 else .w16

/-- Both live widths, sampled from P (R40). -/
def State.widths (s : State) : Widths := { m := s.wA, x := s.wX }

/-- P with one flag written directly (R43, R46). -/
def State.putFlag (s : State) (f : Flag) (b : Bool) : State := { s with p := withFlag s.p f b }

/-- `setNZ(v, w)` on the state's P (R15). -/
def State.putNZ (s : State) (v : Word) (w : Width) : State := { s with p := setNZ v w s.p }

/-- `setP(v)` (R43): emulation mode keeps M and X set, and the policy Zero clears the index high bytes whenever
P.X = 1. -/
def State.setP (s : State) (v : Byte) : State :=
  let t := { s with p := if s.e then v ||| 0x30 else v }
  if t.flag .x && t.params.indexNarrow == .zero then { t with x := zext (lo t.x), y := zext (lo t.y) } else t

/-! ### Width-aware register access -/

/-- `readA()` (R41). -/
def State.readA (s : State) : Word := if s.flag .m then zext (lo s.c) else s.c

/-- `writeA(v)` (R41): with P.M = 1, B is preserved. -/
def State.writeA (s : State) (v : Word) : State :=
  { s with c := if s.flag .m then word (hi s.c) (lo v) else v }

/-- `readX()` (R42). -/
def State.readX (s : State) : Word := if s.flag .x then zext (lo s.x) else s.x

/-- `readY()` (R42). -/
def State.readY (s : State) : Word := if s.flag .x then zext (lo s.y) else s.y

/-- The value an index register with the value `old` takes when `v` is written to it (R42). -/
def State.indexWrite (s : State) (old v : Word) : Word :=
  if s.flag .x then
    match s.params.indexNarrow with
    | .preserve => word (hi old) (lo v)
    | .zero => zext (lo v)
  else v

/-- `writeX(v)` (R42). -/
def State.writeX (s : State) (v : Word) : State := { s with x := s.indexWrite s.x v }

/-- `writeY(v)` (R42). -/
def State.writeY (s : State) (v : Word) : State := { s with y := s.indexWrite s.y v }

/-- S as a whole-register write leaves it: page $01 in emulation mode (R39, R61, R214, R215). -/
def State.writeS (s : State) (v : Word) : State := { s with sp := if s.e then word 0x01 (lo v) else v }

/-- The cycle counter advanced by `n`, modulo 2^64 (R45). -/
def State.charge (s : State) (n : Nat) : State := { s with cycles := s.cycles + BitVec.ofNat 64 n }

/-! ### The memory collaborator -/

/-- Whether the collaborator's answers at an address are free values (R76; log 3). -/
def State.oracleAt (s : State) (a : Addr) : Bool :=
  s.params.oracleRanges.any fun r => decide (r.base ≤ a.toNat) && decide (a.toNat < r.base + r.size)

/-- What the collaborator answers if its next call is `read(a)`: the byte last written there, or at an oracle
address a free value of that call (R76, R80; log 3). -/
def State.answer (s : State) (a : Addr) : Byte :=
  if s.oracleAt a then Config.oracleByte s.trace.length else Memory.read s.mem a.toNat

/-- The state after one recorded call of the collaborator (R13). -/
def State.record (s : State) (ev : BusEvent) : State := { s with trace := s.trace ++ [ev] }

/-- `MemRead(a, 1)` (R13, R70). -/
def State.memRead (s : State) (a : Addr) : Byte × State := (s.answer a, s.record (.read a (s.answer a)))

/-- `MemWrite(a, 1, v)` (R13, R70). -/
def State.memWrite (s : State) (a : Addr) (v : Byte) : State :=
  { s.record (.write a v) with mem := Memory.write s.mem a.toNat v }

/-- Which of the two rules of R86 places the bytes of a multi-byte value. -/
inductive Seq where
  /-- `seqB0`: wrap inside bank $00. -/
  | bank0
  /-- `seqLong`: carry into the next bank. -/
  | long
deriving DecidableEq, Repr

/-- The address of byte `k` of the value at `a` (R86). -/
def Seq.at (q : Seq) (a : Addr) (k : Nat) : Addr :=
  match q with
  | .bank0 => addrOf 0x00 (alOffset a + BitVec.ofNat 16 k)
  | .long => a + BitVec.ofNat 24 k

/-- `ReadN(a, 2, seq)` (R86): low byte first (R75). -/
def State.read16 (s : State) (q : Seq) (a : Addr) : Word × State :=
  let l := s.memRead (q.at a 0)
  let h := l.2.memRead (q.at a 1)
  (word h.1 l.1, h.2)

/-- `ReadN(a, 3, seq)` (R86). -/
def State.read24 (s : State) (q : Seq) (a : Addr) : Addr × State :=
  let l := s.read16 q a
  let b := l.2.memRead (q.at a 2)
  (addrOf b.1 l.1, b.2)

/-- `ReadN(a, w/8, seq)` (R86), zero-extended. -/
def State.readW (s : State) (q : Seq) (a : Addr) (w : Width) : Word × State :=
  match w with
  | .w8 =>
    let b := s.memRead (q.at a 0)
    (zext b.1, b.2)
  | .w16 => s.read16 q a

/-- `WriteN(a, w/8, seq, v)` (R86): low byte first (R75). -/
def State.writeW (s : State) (q : Seq) (a : Addr) (w : Width) (v : Word) : State :=
  match w with
  | .w8 => s.memWrite (q.at a 0) (lo v)
  | .w16 => (s.memWrite (q.at a 0) (lo v)).memWrite (q.at a 1) (hi v)

/-! ### The stack -/

/-- S after a push of one byte (R300). -/
def State.spDown (s : State) : Word := if s.e then word 0x01 (lo s.sp - 1) else s.sp - 1

/-- S after a pull of one byte (R301). -/
def State.spUp (s : State) : Word := if s.e then word 0x01 (lo s.sp + 1) else s.sp + 1

/-- `Push8(v)` (R300). -/
def State.push8 (s : State) (v : Byte) : State :=
  { s.memWrite (addrOf 0x00 s.sp) v with sp := s.spDown }

/-- `Pull8()` (R301). -/
def State.pull8 (s : State) : Byte × State :=
  { s with sp := s.spUp }.memRead (addrOf 0x00 s.spUp)

/-- `Push16(v)`: high byte first (R302). -/
def State.push16 (s : State) (v : Word) : State := (s.push8 (hi v)).push8 (lo v)

/-- `Pull16()`: low byte first (R302). -/
def State.pull16 (s : State) : Word × State :=
  let l := s.pull8
  let h := l.2.pull8
  (word h.1 l.1, h.2)

/-- `PushN(v, w)` (R302). -/
def State.pushW (s : State) (v : Word) (w : Width) : State :=
  match w with
  | .w8 => s.push8 (lo v)
  | .w16 => s.push16 v

/-- `PullN(w)` (R302). -/
def State.pullW (s : State) (w : Width) : Word × State :=
  match w with
  | .w8 =>
    let b := s.pull8
    (zext b.1, b.2)
  | .w16 => s.pull16

/-! ### Interrupt entry and return -/

/-- The events that enter a handler (R401, R404). -/
inductive EntryKind where
  | brk
  | cop
  | irq
  | nmi
deriving DecidableEq, Repr

/-- Whether the event is delivered by the host, not raised by an instruction (R401). -/
def EntryKind.hardware : EntryKind → Bool
  | .brk => false
  | .cop => false
  | .irq => true
  | .nmi => true

/-- The address in bank $00 of the event's vector, by E at the moment of entry (R403). -/
def EntryKind.vector (e : Bool) : EntryKind → Word
  | .cop => if e then 0xFFF4 else 0xFFE4
  | .brk => if e then 0xFFFE else 0xFFE6
  | .nmi => if e then 0xFFFA else 0xFFEA
  | .irq => if e then 0xFFFE else 0xFFEE

/-- The byte that entry pushes for P: in emulation mode a hardware event clears the break bit, bit 4 (R404). -/
def State.pushedP (s : State) (k : EntryKind) : Byte := if s.e && k.hardware then s.p &&& ~~~0x10 else s.p

/-- `enterInterrupt(kind)` (R404): push PBR (native mode only), PC and P, set I, clear D, and go to the handler
at the vector, in bank $00. -/
def State.enterInterrupt (s : State) (k : EntryKind) : State :=
  let a := if s.e then s else s.push8 s.pbr
  let b := (a.push16 s.pc).push8 (s.pushedP k)
  let t := { (b.putFlag .i true).putFlag .d false with pbr := 0x00 }
  let v := t.read16 .bank0 (addrOf 0x00 (k.vector s.e))
  { v.2 with pc := v.1 }

/-- The return from an interrupt (R326, R420): pull P through `setP`, then PC, then PBR in native mode. -/
def State.returnFromInterrupt (s : State) : State :=
  let a := s.pull8
  let b := (a.2.setP a.1).pull16
  let t := { b.2 with pc := b.1 }
  if t.e then t
  else
    let r := t.pull8
    { r.2 with pbr := r.1 }

/-- `enterEmulation` (R283). -/
def State.enterEmulation (s : State) : State :=
  let t := (s.putFlag .m true).putFlag .x true
  { t with x := zext (lo t.x), y := zext (lo t.y), sp := word 0x01 (lo t.sp) }

end Sys2Proof.Machine
end

