-- ==== Sys2Proof/Machine/Cycles.lean ====
section
/-! DEFINITION. The cycle accountant: the modifiers of R461 and the cost of one instruction step (R460, R462). -/

namespace Sys2Proof.Machine

/-- The cycle modifiers (R461), by their names in spec/opcode_table.json. -/
inductive CycleMod where
  | m1
  | m2
  | x1
  | dl
  | px
  | e
  | br
  | bra
deriving DecidableEq, Repr

/-- What a cost may depend on besides the state: the page-cross predicate of R154, whether a branch was taken,
and whether its target lies in another page than PCnext (R460, R462). -/
structure CycleInfo where
  crossed : Bool
  taken : Bool
  newPage : Bool
deriving DecidableEq, Repr

/-- Nothing crossed, nothing taken. -/
def CycleInfo.none : CycleInfo := { crossed := false, taken := false, newPage := false }

/-- The cycles a modifier adds (R461, R462), from P, E and D as they are before the instruction executes. -/
def State.modCycles (s : State) (info : CycleInfo) : CycleMod → Nat
  | .m1 => if s.flag .m then 0 else 1
  | .m2 => if s.flag .m then 0 else 2
  | .x1 => if s.flag .x then 0 else 1
  | .dl => if lo s.d = 0 then 0 else 1
  | .px => if s.flag .x && !info.crossed then 0 else 1
  | .e => if s.e then 0 else 1
  | .br => if info.taken then (if s.e && info.newPage then 2 else 1) else 0
  | .bra => if s.e && info.newPage then 1 else 0

/-- `Cost(op) = base(op) + Σ modifier(op)` (R460). -/
def State.cost (s : State) (base : Nat) (mods : List CycleMod) (info : CycleInfo) : Nat :=
  base + (mods.map (s.modCycles info)).sum

end Sys2Proof.Machine
end

