-- ==== Sys2Proof/Syntax.lean ====
section
/-! DEFINITION. The instruction set as data: one constructor for each of the 256 rows of spec/opcode_table.json
(R101, R109, R116 of 30_encoding.md). A constructor is named after its row's mnemonic and format.
The instructions with operand bytes stand first, in opcode order, then those without, in opcode order: Lean's
compiler numbers at most 244 constructors that carry fields. -/

namespace Sys2Proof

/-- An immediate operand of the formats `imm_m` and `imm_x`: one byte or two, as P.M or P.X selects when the
instruction is fetched (R101 to R103 of 30_encoding.md). -/
inductive Imm where
  | w8 (b : Byte)
  | w16 (v : Word)
deriving DecidableEq, Repr

/-- The instructions. Operand fields, by format (R103 to R107 of 30_encoding.md): `d` a direct-page or stack
offset, `a` a 16-bit address, `al` a 24-bit address, `k` an immediate or signature byte, `v` a 16-bit constant,
`r` a displacement, `dst` and `src` the banks of a block move in machine order. -/
inductive Instr where
  /-- $00 BRK #sig, R341. -/
  | brkSig8 (k : Byte)
  /-- $01 ORA (d,X), R240. -/
  | oraDpxind (d : Byte)
  /-- $02 COP #sig, R342. -/
  | copSig8 (k : Byte)
  /-- $03 ORA d,S, R240. -/
  | oraSr (d : Byte)
  /-- $04 TSB d, R267. -/
  | tsbDp (d : Byte)
  /-- $05 ORA d, R240. -/
  | oraDp (d : Byte)
  /-- $06 ASL d, R261. -/
  | aslDp (d : Byte)
  /-- $07 ORA [d], R240. -/
  | oraDplong (d : Byte)
  /-- $09 ORA #const, R240. -/
  | oraImmM (k : Imm)
  /-- $0C TSB a, R267. -/
  | tsbAbs (a : Word)
  /-- $0D ORA a, R240. -/
  | oraAbs (a : Word)
  /-- $0E ASL a, R261. -/
  | aslAbs (a : Word)
  /-- $0F ORA al, R240. -/
  | oraLong (al : Addr)
  /-- $10 BPL label, R331. -/
  | bplRel8 (r : Byte)
  /-- $11 ORA (d),Y, R240. -/
  | oraDpindy (d : Byte)
  /-- $12 ORA (d), R240. -/
  | oraDpind (d : Byte)
  /-- $13 ORA (d,S),Y, R240. -/
  | oraSriy (d : Byte)
  /-- $14 TRB d, R268. -/
  | trbDp (d : Byte)
  /-- $15 ORA d,X, R240. -/
  | oraDpx (d : Byte)
  /-- $16 ASL d,X, R261. -/
  | aslDpx (d : Byte)
  /-- $17 ORA [d],Y, R240. -/
  | oraDplongy (d : Byte)
  /-- $19 ORA a,Y, R240. -/
  | oraAbsy (a : Word)
  /-- $1C TRB a, R268. -/
  | trbAbs (a : Word)
  /-- $1D ORA a,X, R240. -/
  | oraAbsx (a : Word)
  /-- $1E ASL a,X, R261. -/
  | aslAbsx (a : Word)
  /-- $1F ORA al,X, R240. -/
  | oraLongx (al : Addr)
  /-- $20 JSR a, R322. -/
  | jsrAbs (a : Word)
  /-- $21 AND (d,X), R241. -/
  | andDpxind (d : Byte)
  /-- $22 JSL al, R323. -/
  | jslLong (al : Addr)
  /-- $23 AND d,S, R241. -/
  | andSr (d : Byte)
  /-- $24 BIT d, R248. -/
  | bitDp (d : Byte)
  /-- $25 AND d, R241. -/
  | andDp (d : Byte)
  /-- $26 ROL d, R263. -/
  | rolDp (d : Byte)
  /-- $27 AND [d], R241. -/
  | andDplong (d : Byte)
  /-- $29 AND #const, R241. -/
  | andImmM (k : Imm)
  /-- $2C BIT a, R248. -/
  | bitAbs (a : Word)
  /-- $2D AND a, R241. -/
  | andAbs (a : Word)
  /-- $2E ROL a, R263. -/
  | rolAbs (a : Word)
  /-- $2F AND al, R241. -/
  | andLong (al : Addr)
  /-- $30 BMI label, R332. -/
  | bmiRel8 (r : Byte)
  /-- $31 AND (d),Y, R241. -/
  | andDpindy (d : Byte)
  /-- $32 AND (d), R241. -/
  | andDpind (d : Byte)
  /-- $33 AND (d,S),Y, R241. -/
  | andSriy (d : Byte)
  /-- $34 BIT d,X, R248. -/
  | bitDpx (d : Byte)
  /-- $35 AND d,X, R241. -/
  | andDpx (d : Byte)
  /-- $36 ROL d,X, R263. -/
  | rolDpx (d : Byte)
  /-- $37 AND [d],Y, R241. -/
  | andDplongy (d : Byte)
  /-- $39 AND a,Y, R241. -/
  | andAbsy (a : Word)
  /-- $3C BIT a,X, R248. -/
  | bitAbsx (a : Word)
  /-- $3D AND a,X, R241. -/
  | andAbsx (a : Word)
  /-- $3E ROL a,X, R263. -/
  | rolAbsx (a : Word)
  /-- $3F AND al,X, R241. -/
  | andLongx (al : Addr)
  /-- $41 EOR (d,X), R242. -/
  | eorDpxind (d : Byte)
  /-- $42 WDM #const8, R361. -/
  | wdmImm8 (k : Byte)
  /-- $43 EOR d,S, R242. -/
  | eorSr (d : Byte)
  /-- $44 MVP srcbk,destbk, R364. -/
  | mvpBlk (dst : Byte) (src : Byte)
  /-- $45 EOR d, R242. -/
  | eorDp (d : Byte)
  /-- $46 LSR d, R262. -/
  | lsrDp (d : Byte)
  /-- $47 EOR [d], R242. -/
  | eorDplong (d : Byte)
  /-- $49 EOR #const, R242. -/
  | eorImmM (k : Imm)
  /-- $4C JMP a, R320. -/
  | jmpAbs (a : Word)
  /-- $4D EOR a, R242. -/
  | eorAbs (a : Word)
  /-- $4E LSR a, R262. -/
  | lsrAbs (a : Word)
  /-- $4F EOR al, R242. -/
  | eorLong (al : Addr)
  /-- $50 BVC label, R333. -/
  | bvcRel8 (r : Byte)
  /-- $51 EOR (d),Y, R242. -/
  | eorDpindy (d : Byte)
  /-- $52 EOR (d), R242. -/
  | eorDpind (d : Byte)
  /-- $53 EOR (d,S),Y, R242. -/
  | eorSriy (d : Byte)
  /-- $54 MVN srcbk,destbk, R363. -/
  | mvnBlk (dst : Byte) (src : Byte)
  /-- $55 EOR d,X, R242. -/
  | eorDpx (d : Byte)
  /-- $56 LSR d,X, R262. -/
  | lsrDpx (d : Byte)
  /-- $57 EOR [d],Y, R242. -/
  | eorDplongy (d : Byte)
  /-- $59 EOR a,Y, R242. -/
  | eorAbsy (a : Word)
  /-- $5C JML al, R321. -/
  | jmlLong (al : Addr)
  /-- $5D EOR a,X, R242. -/
  | eorAbsx (a : Word)
  /-- $5E LSR a,X, R262. -/
  | lsrAbsx (a : Word)
  /-- $5F EOR al,X, R242. -/
  | eorLongx (al : Addr)
  /-- $61 ADC (d,X), R243. -/
  | adcDpxind (d : Byte)
  /-- $62 PER label, R317. -/
  | perRel16 (r : Word)
  /-- $63 ADC d,S, R243. -/
  | adcSr (d : Byte)
  /-- $64 STZ d, R206. -/
  | stzDp (d : Byte)
  /-- $65 ADC d, R243. -/
  | adcDp (d : Byte)
  /-- $66 ROR d, R264. -/
  | rorDp (d : Byte)
  /-- $67 ADC [d], R243. -/
  | adcDplong (d : Byte)
  /-- $69 ADC #const, R243. -/
  | adcImmM (k : Imm)
  /-- $6C JMP (a), R320. -/
  | jmpAbsind (a : Word)
  /-- $6D ADC a, R243. -/
  | adcAbs (a : Word)
  /-- $6E ROR a, R264. -/
  | rorAbs (a : Word)
  /-- $6F ADC al, R243. -/
  | adcLong (al : Addr)
  /-- $70 BVS label, R334. -/
  | bvsRel8 (r : Byte)
  /-- $71 ADC (d),Y, R243. -/
  | adcDpindy (d : Byte)
  /-- $72 ADC (d), R243. -/
  | adcDpind (d : Byte)
  /-- $73 ADC (d,S),Y, R243. -/
  | adcSriy (d : Byte)
  /-- $74 STZ d,X, R206. -/
  | stzDpx (d : Byte)
  /-- $75 ADC d,X, R243. -/
  | adcDpx (d : Byte)
  /-- $76 ROR d,X, R264. -/
  | rorDpx (d : Byte)
  /-- $77 ADC [d],Y, R243. -/
  | adcDplongy (d : Byte)
  /-- $79 ADC a,Y, R243. -/
  | adcAbsy (a : Word)
  /-- $7C JMP (a,X), R320. -/
  | jmpAbsxind (a : Word)
  /-- $7D ADC a,X, R243. -/
  | adcAbsx (a : Word)
  /-- $7E ROR a,X, R264. -/
  | rorAbsx (a : Word)
  /-- $7F ADC al,X, R243. -/
  | adcLongx (al : Addr)
  /-- $80 BRA label, R339. -/
  | braRel8 (r : Byte)
  /-- $81 STA (d,X), R203. -/
  | staDpxind (d : Byte)
  /-- $82 BRL label, R340. -/
  | brlRel16 (r : Word)
  /-- $83 STA d,S, R203. -/
  | staSr (d : Byte)
  /-- $84 STY d, R205. -/
  | styDp (d : Byte)
  /-- $85 STA d, R203. -/
  | staDp (d : Byte)
  /-- $86 STX d, R204. -/
  | stxDp (d : Byte)
  /-- $87 STA [d], R203. -/
  | staDplong (d : Byte)
  /-- $89 BIT #const, R248. -/
  | bitImmM (k : Imm)
  /-- $8C STY a, R205. -/
  | styAbs (a : Word)
  /-- $8D STA a, R203. -/
  | staAbs (a : Word)
  /-- $8E STX a, R204. -/
  | stxAbs (a : Word)
  /-- $8F STA al, R203. -/
  | staLong (al : Addr)
  /-- $90 BCC label, R335. -/
  | bccRel8 (r : Byte)
  /-- $91 STA (d),Y, R203. -/
  | staDpindy (d : Byte)
  /-- $92 STA (d), R203. -/
  | staDpind (d : Byte)
  /-- $93 STA (d,S),Y, R203. -/
  | staSriy (d : Byte)
  /-- $94 STY d,X, R205. -/
  | styDpx (d : Byte)
  /-- $95 STA d,X, R203. -/
  | staDpx (d : Byte)
  /-- $96 STX d,Y, R204. -/
  | stxDpy (d : Byte)
  /-- $97 STA [d],Y, R203. -/
  | staDplongy (d : Byte)
  /-- $99 STA a,Y, R203. -/
  | staAbsy (a : Word)
  /-- $9C STZ a, R206. -/
  | stzAbs (a : Word)
  /-- $9D STA a,X, R203. -/
  | staAbsx (a : Word)
  /-- $9E STZ a,X, R206. -/
  | stzAbsx (a : Word)
  /-- $9F STA al,X, R203. -/
  | staLongx (al : Addr)
  /-- $A0 LDY #const, R202. -/
  | ldyImmX (k : Imm)
  /-- $A1 LDA (d,X), R200. -/
  | ldaDpxind (d : Byte)
  /-- $A2 LDX #const, R201. -/
  | ldxImmX (k : Imm)
  /-- $A3 LDA d,S, R200. -/
  | ldaSr (d : Byte)
  /-- $A4 LDY d, R202. -/
  | ldyDp (d : Byte)
  /-- $A5 LDA d, R200. -/
  | ldaDp (d : Byte)
  /-- $A6 LDX d, R201. -/
  | ldxDp (d : Byte)
  /-- $A7 LDA [d], R200. -/
  | ldaDplong (d : Byte)
  /-- $A9 LDA #const, R200. -/
  | ldaImmM (k : Imm)
  /-- $AC LDY a, R202. -/
  | ldyAbs (a : Word)
  /-- $AD LDA a, R200. -/
  | ldaAbs (a : Word)
  /-- $AE LDX a, R201. -/
  | ldxAbs (a : Word)
  /-- $AF LDA al, R200. -/
  | ldaLong (al : Addr)
  /-- $B0 BCS label, R336. -/
  | bcsRel8 (r : Byte)
  /-- $B1 LDA (d),Y, R200. -/
  | ldaDpindy (d : Byte)
  /-- $B2 LDA (d), R200. -/
  | ldaDpind (d : Byte)
  /-- $B3 LDA (d,S),Y, R200. -/
  | ldaSriy (d : Byte)
  /-- $B4 LDY d,X, R202. -/
  | ldyDpx (d : Byte)
  /-- $B5 LDA d,X, R200. -/
  | ldaDpx (d : Byte)
  /-- $B6 LDX d,Y, R201. -/
  | ldxDpy (d : Byte)
  /-- $B7 LDA [d],Y, R200. -/
  | ldaDplongy (d : Byte)
  /-- $B9 LDA a,Y, R200. -/
  | ldaAbsy (a : Word)
  /-- $BC LDY a,X, R202. -/
  | ldyAbsx (a : Word)
  /-- $BD LDA a,X, R200. -/
  | ldaAbsx (a : Word)
  /-- $BE LDX a,Y, R201. -/
  | ldxAbsy (a : Word)
  /-- $BF LDA al,X, R200. -/
  | ldaLongx (al : Addr)
  /-- $C0 CPY #const, R247. -/
  | cpyImmX (k : Imm)
  /-- $C1 CMP (d,X), R245. -/
  | cmpDpxind (d : Byte)
  /-- $C2 REP #const8, R280. -/
  | repImm8 (k : Byte)
  /-- $C3 CMP d,S, R245. -/
  | cmpSr (d : Byte)
  /-- $C4 CPY d, R247. -/
  | cpyDp (d : Byte)
  /-- $C5 CMP d, R245. -/
  | cmpDp (d : Byte)
  /-- $C6 DEC d, R266. -/
  | decDp (d : Byte)
  /-- $C7 CMP [d], R245. -/
  | cmpDplong (d : Byte)
  /-- $C9 CMP #const, R245. -/
  | cmpImmM (k : Imm)
  /-- $CC CPY a, R247. -/
  | cpyAbs (a : Word)
  /-- $CD CMP a, R245. -/
  | cmpAbs (a : Word)
  /-- $CE DEC a, R266. -/
  | decAbs (a : Word)
  /-- $CF CMP al, R245. -/
  | cmpLong (al : Addr)
  /-- $D0 BNE label, R337. -/
  | bneRel8 (r : Byte)
  /-- $D1 CMP (d),Y, R245. -/
  | cmpDpindy (d : Byte)
  /-- $D2 CMP (d), R245. -/
  | cmpDpind (d : Byte)
  /-- $D3 CMP (d,S),Y, R245. -/
  | cmpSriy (d : Byte)
  /-- $D4 PEI (d), R319. -/
  | peiDpind (d : Byte)
  /-- $D5 CMP d,X, R245. -/
  | cmpDpx (d : Byte)
  /-- $D6 DEC d,X, R266. -/
  | decDpx (d : Byte)
  /-- $D7 CMP [d],Y, R245. -/
  | cmpDplongy (d : Byte)
  /-- $D9 CMP a,Y, R245. -/
  | cmpAbsy (a : Word)
  /-- $DC JML [a], R321. -/
  | jmlAbslongind (a : Word)
  /-- $DD CMP a,X, R245. -/
  | cmpAbsx (a : Word)
  /-- $DE DEC a,X, R266. -/
  | decAbsx (a : Word)
  /-- $DF CMP al,X, R245. -/
  | cmpLongx (al : Addr)
  /-- $E0 CPX #const, R246. -/
  | cpxImmX (k : Imm)
  /-- $E1 SBC (d,X), R244. -/
  | sbcDpxind (d : Byte)
  /-- $E2 SEP #const8, R281. -/
  | sepImm8 (k : Byte)
  /-- $E3 SBC d,S, R244. -/
  | sbcSr (d : Byte)
  /-- $E4 CPX d, R246. -/
  | cpxDp (d : Byte)
  /-- $E5 SBC d, R244. -/
  | sbcDp (d : Byte)
  /-- $E6 INC d, R265. -/
  | incDp (d : Byte)
  /-- $E7 SBC [d], R244. -/
  | sbcDplong (d : Byte)
  /-- $E9 SBC #const, R244. -/
  | sbcImmM (k : Imm)
  /-- $EC CPX a, R246. -/
  | cpxAbs (a : Word)
  /-- $ED SBC a, R244. -/
  | sbcAbs (a : Word)
  /-- $EE INC a, R265. -/
  | incAbs (a : Word)
  /-- $EF SBC al, R244. -/
  | sbcLong (al : Addr)
  /-- $F0 BEQ label, R338. -/
  | beqRel8 (r : Byte)
  /-- $F1 SBC (d),Y, R244. -/
  | sbcDpindy (d : Byte)
  /-- $F2 SBC (d), R244. -/
  | sbcDpind (d : Byte)
  /-- $F3 SBC (d,S),Y, R244. -/
  | sbcSriy (d : Byte)
  /-- $F4 PEA #const16, R318. -/
  | peaImm16 (v : Word)
  /-- $F5 SBC d,X, R244. -/
  | sbcDpx (d : Byte)
  /-- $F6 INC d,X, R265. -/
  | incDpx (d : Byte)
  /-- $F7 SBC [d],Y, R244. -/
  | sbcDplongy (d : Byte)
  /-- $F9 SBC a,Y, R244. -/
  | sbcAbsy (a : Word)
  /-- $FC JSR (a,X), R322. -/
  | jsrAbsxind (a : Word)
  /-- $FD SBC a,X, R244. -/
  | sbcAbsx (a : Word)
  /-- $FE INC a,X, R265. -/
  | incAbsx (a : Word)
  /-- $FF SBC al,X, R244. -/
  | sbcLongx (al : Addr)
  /-- $08 PHP, R310. -/
  | phpImp
  /-- $0A ASL A, R261. -/
  | aslAcc
  /-- $0B PHD, R315. -/
  | phdImp
  /-- $18 CLC, R284. -/
  | clcImp
  /-- $1A INC A, R265. -/
  | incAcc
  /-- $1B TCS, R215. -/
  | tcsImp
  /-- $28 PLP, R311. -/
  | plpImp
  /-- $2A ROL A, R263. -/
  | rolAcc
  /-- $2B PLD, R316. -/
  | pldImp
  /-- $38 SEC, R285. -/
  | secImp
  /-- $3A DEC A, R266. -/
  | decAcc
  /-- $3B TSC, R216. -/
  | tscImp
  /-- $40 RTI, R326. -/
  | rtiImp
  /-- $48 PHA, R304. -/
  | phaImp
  /-- $4A LSR A, R262. -/
  | lsrAcc
  /-- $4B PHK, R314. -/
  | phkImp
  /-- $58 CLI, R286. -/
  | cliImp
  /-- $5A PHY, R306. -/
  | phyImp
  /-- $5B TCD, R217. -/
  | tcdImp
  /-- $60 RTS, R324. -/
  | rtsImp
  /-- $68 PLA, R307. -/
  | plaImp
  /-- $6A ROR A, R264. -/
  | rorAcc
  /-- $6B RTL, R325. -/
  | rtlImp
  /-- $78 SEI, R287. -/
  | seiImp
  /-- $7A PLY, R309. -/
  | plyImp
  /-- $7B TDC, R218. -/
  | tdcImp
  /-- $88 DEY, R273. -/
  | deyImp
  /-- $8A TXA, R209. -/
  | txaImp
  /-- $8B PHB, R312. -/
  | phbImp
  /-- $98 TYA, R210. -/
  | tyaImp
  /-- $9A TXS, R214. -/
  | txsImp
  /-- $9B TXY, R211. -/
  | txyImp
  /-- $A8 TAY, R208. -/
  | tayImp
  /-- $AA TAX, R207. -/
  | taxImp
  /-- $AB PLB, R313. -/
  | plbImp
  /-- $B8 CLV, R290. -/
  | clvImp
  /-- $BA TSX, R213. -/
  | tsxImp
  /-- $BB TYX, R212. -/
  | tyxImp
  /-- $C8 INY, R271. -/
  | inyImp
  /-- $CA DEX, R272. -/
  | dexImp
  /-- $CB WAI, R365. -/
  | waiImp
  /-- $D8 CLD, R288. -/
  | cldImp
  /-- $DA PHX, R305. -/
  | phxImp
  /-- $DB STP, R366. -/
  | stpImp
  /-- $E8 INX, R270. -/
  | inxImp
  /-- $EA NOP, R360. -/
  | nopImp
  /-- $EB XBA, R219. -/
  | xbaImp
  /-- $F8 SED, R289. -/
  | sedImp
  /-- $FA PLX, R308. -/
  | plxImp
  /-- $FB XCE, R282. -/
  | xceImp
deriving DecidableEq, Repr

end Sys2Proof
end

