-- ==== Sys2Proof/Machine/Operands.lean ====
section
/-! DEFINITION. The addressing and operand resolver (40_addressing.md): the effective address of every memory
mode, and operand reads and writes. The operand bytes of the instruction are already fetched, in its fields. -/

namespace Sys2Proof.Machine

/-- The memory modes of R131, each with its operand. -/
inductive DataMode where
  | dp (d : Byte)
  | dpx (d : Byte)
  | dpy (d : Byte)
  | dpind (d : Byte)
  | dpxind (d : Byte)
  | dpindy (d : Byte)
  | dplong (d : Byte)
  | dplongy (d : Byte)
  | sr (d : Byte)
  | sriy (d : Byte)
  | abs (a : Word)
  | absx (a : Word)
  | absy (a : Word)
  | long (al : Addr)
  | longx (al : Addr)
deriving DecidableEq, Repr

/-- The operand of an instruction that reads one: an immediate (R133) or a memory mode. -/
inductive Operand where
  | imm (k : Imm)
  | mem (m : DataMode)
deriving DecidableEq, Repr

/-- Whether the emulation-mode page wrap of the direct page applies (R135). -/
def State.dpPageWrap (s : State) : Bool := s.params.emuDpPageWrap && s.e && lo s.d == 0

/-- `Dp(n)` (R134, R135). -/
def State.dpAddr (s : State) (n : Word) : Addr :=
  addrOf 0x00 (if s.dpPageWrap then word (hi s.d) (lo n) else s.d + n)

/-- `DpPtr16(a)` (R134, R135): the pointer whose low byte is at `a`. -/
def State.dpPtr (s : State) (a : Addr) : Word × State :=
  if s.dpPageWrap then
    let l := s.memRead a
    let h := l.2.memRead (addrOf 0x00 (word (alHi a) (alLo a + 1)))
    (word h.1 l.1, h.2)
  else s.read16 .bank0 a

/-- The page-cross predicate, on the sum not truncated (R154). -/
def pageCrossed (base index : Word) : Bool := decide ((base.toNat + index.toNat) / 2 ^ 8 ≠ base.toNat / 2 ^ 8)

/-- What resolving an operand gives: its address, the sequence of its bytes, the page-cross predicate, and the
state after the pointer reads (R131). -/
structure Resolved where
  addr : Addr
  seq : Seq
  crossed : Bool
  st : State

/-- `EA(mode)` (R131, R134 to R146). -/
def State.ea (s : State) : DataMode → Resolved
  | .dp d => { addr := s.dpAddr (zext d), seq := .bank0, crossed := false, st := s }
  | .dpx d => { addr := s.dpAddr (zext d + s.readX), seq := .bank0, crossed := false, st := s }
  | .dpy d => { addr := s.dpAddr (zext d + s.readY), seq := .bank0, crossed := false, st := s }
  | .dpind d =>
    let p := s.dpPtr (s.dpAddr (zext d))
    { addr := addrOf s.dbr p.1, seq := .long, crossed := false, st := p.2 }
  | .dpxind d =>
    let p := s.dpPtr (s.dpAddr (zext d + s.readX))
    { addr := addrOf s.dbr p.1, seq := .long, crossed := false, st := p.2 }
  | .dpindy d =>
    let p := s.dpPtr (s.dpAddr (zext d))
    { addr := addrOf s.dbr p.1 + s.readY.setWidth 24, seq := .long, crossed := pageCrossed p.1 s.readY, st := p.2 }
  | .dplong d =>
    let p := s.read24 .bank0 (addrOf 0x00 (s.d + zext d))
    { addr := p.1, seq := .long, crossed := false, st := p.2 }
  | .dplongy d =>
    let p := s.read24 .bank0 (addrOf 0x00 (s.d + zext d))
    { addr := p.1 + s.readY.setWidth 24, seq := .long, crossed := false, st := p.2 }
  | .sr d => { addr := addrOf 0x00 (s.sp + zext d), seq := .bank0, crossed := false, st := s }
  | .sriy d =>
    let p := s.read16 .bank0 (addrOf 0x00 (s.sp + zext d))
    { addr := addrOf s.dbr p.1 + s.readY.setWidth 24, seq := .long, crossed := false, st := p.2 }
  | .abs a => { addr := addrOf s.dbr a, seq := .long, crossed := false, st := s }
  | .absx a =>
    { addr := addrOf s.dbr a + s.readX.setWidth 24, seq := .long, crossed := pageCrossed a s.readX, st := s }
  | .absy a =>
    { addr := addrOf s.dbr a + s.readY.setWidth 24, seq := .long, crossed := pageCrossed a s.readY, st := s }
  | .long al => { addr := al, seq := .long, crossed := false, st := s }
  | .longx al => { addr := al + s.readX.setWidth 24, seq := .long, crossed := false, st := s }

/-- The value of an immediate, zero-extended (R103). -/
def immValue : Imm → Word
  | .w8 b => zext b
  | .w16 v => v

/-- What reading an operand gives: its value, the page-cross predicate, and the state after the reads. -/
structure Fetched where
  val : Word
  crossed : Bool
  st : State

/-- `OperandRead(mode, w)` (R132). An immediate of the wrong length, which no fetch gives, is cut to `w` bits
(log 11). -/
def State.operandRead (s : State) (src : Operand) (w : Width) : Fetched :=
  match src with
  | .imm k => { val := w.trunc (immValue k), crossed := false, st := s }
  | .mem m =>
    let r := s.ea m
    let v := r.st.readW r.seq r.addr w
    { val := v.1, crossed := r.crossed, st := v.2 }

/-- `OperandWrite(mode, w, v)` (R132). -/
def State.operandWrite (s : State) (m : DataMode) (w : Width) (v : Word) : State :=
  let r := s.ea m
  r.st.writeW r.seq r.addr w v

/-- The information that the page-cross modifier `px` needs. -/
def Fetched.info (f : Fetched) : CycleInfo := { CycleInfo.none with crossed := f.crossed }

end Sys2Proof.Machine
end

