-- ==== Sys2Proof/Machine/ArithLogic.lean ====
section
/-! DEFINITION. Arithmetic, logic, compare, shift and increment instructions (43_arith_logic.md, R240 to R273),
over the primitives of Machine/Flags.lean. -/

namespace Sys2Proof.Machine

/-- `Or` (R175). -/
def orWord (a b : Word) : Word := a ||| b

/-- `And` (R175). -/
def andWord (a b : Word) : Word := a &&& b

/-- `Xor` (R175). -/
def xorWord (a b : Word) : Word := a ^^^ b

/-- ORA, AND, EOR (R240 to R242). -/
def logicA (op : Word → Word → Word) (src : Operand) (base : Nat) (mods : List CycleMod) (s : State) : State :=
  let f := s.operandRead src s.wA
  let r := op s.readA f.val
  ((f.st.writeA r).putNZ r s.wA).charge (s.cost base mods f.info)

/-- ADC (R243): binary or decimal by P.D (R184). -/
def addA (src : Operand) (base : Nat) (mods : List CycleMod) (s : State) : State :=
  let f := s.operandRead src s.wA
  let o := if s.flag .d then addDec s.wA s.readA f.val (s.flag .c) else addBin s.wA s.readA f.val (s.flag .c)
  { f.st.writeA o.result with p := addFlags s.wA o s.p }.charge (s.cost base mods f.info)

/-- SBC (R244): binary or decimal by P.D (R184). -/
def subA (src : Operand) (base : Nat) (mods : List CycleMod) (s : State) : State :=
  let f := s.operandRead src s.wA
  let o := if s.flag .d then subDec s.wA s.readA f.val (s.flag .c) else subBin s.wA s.readA f.val (s.flag .c)
  { f.st.writeA o.result with p := addFlags s.wA o s.p }.charge (s.cost base mods f.info)

/-- CMP (R245). -/
def compareA (src : Operand) (base : Nat) (mods : List CycleMod) (s : State) : State :=
  let f := s.operandRead src s.wA
  { f.st with p := cmp s.wA s.readA f.val s.p }.charge (s.cost base mods f.info)

/-- CPX (R246). -/
def compareX (src : Operand) (base : Nat) (mods : List CycleMod) (s : State) : State :=
  let f := s.operandRead src s.wX
  { f.st with p := cmp s.wX s.readX f.val s.p }.charge (s.cost base mods f.info)

/-- CPY (R247). -/
def compareY (src : Operand) (base : Nat) (mods : List CycleMod) (s : State) : State :=
  let f := s.operandRead src s.wX
  { f.st with p := cmp s.wX s.readY f.val s.p }.charge (s.cost base mods f.info)

/-- BIT in the memory modes: Z, N and V (R248). -/
def bitMem (m : DataMode) (base : Nat) (mods : List CycleMod) (s : State) : State :=
  let f := s.operandRead (.mem m) s.wA
  { f.st with p := testNV s.wA f.val (testZ s.readA f.val s.p) }.charge (s.cost base mods f.info)

/-- BIT immediate: Z only (R248). -/
def bitImm (k : Imm) (base : Nat) (mods : List CycleMod) (s : State) : State :=
  let f := s.operandRead (.imm k) s.wA
  { f.st with p := testZ s.readA f.val s.p }.charge (s.cost base mods f.info)

/-! ### Read-modify-write (R260): each operation gives the value to store and P -/

/-- ASL (R261). -/
def aslOp (w : Width) (v : Word) (p : Byte) : Word × Byte := ((asl w v).result, shiftFlags w (asl w v) p)

/-- LSR (R262). -/
def lsrOp (w : Width) (v : Word) (p : Byte) : Word × Byte := ((lsr v).result, shiftFlags w (lsr v) p)

/-- ROL (R263). -/
def rolOp (w : Width) (v : Word) (p : Byte) : Word × Byte :=
  let o := rol w v (flagOf p .c)
  (o.result, shiftFlags w o p)

/-- ROR (R264). -/
def rorOp (w : Width) (v : Word) (p : Byte) : Word × Byte :=
  let o := ror w v (flagOf p .c)
  (o.result, shiftFlags w o p)

/-- INC (R265). -/
def incOp (w : Width) (v : Word) (p : Byte) : Word × Byte := (inc w v, setNZ (inc w v) w p)

/-- DEC (R266). -/
def decOp (w : Width) (v : Word) (p : Byte) : Word × Byte := (dec w v, setNZ (dec w v) w p)

/-- TSB with the accumulator value `a` (R267): Z from the value before the set. -/
def tsbOp (a : Word) (_w : Width) (v : Word) (p : Byte) : Word × Byte := (v ||| a, testZ a v p)

/-- TRB with the accumulator value `a` (R268). -/
def trbOp (a : Word) (w : Width) (v : Word) (p : Byte) : Word × Byte := (v &&& ~~~a &&& w.mask, testZ a v p)

/-- A read-modify-write of a memory operand (R260): the address is resolved once, every read comes before every
write. -/
def modifyMem (op : Width → Word → Byte → Word × Byte) (m : DataMode) (base : Nat) (mods : List CycleMod)
    (s : State) : State :=
  let r := s.ea m
  let v := r.st.readW r.seq r.addr s.wA
  let o := op s.wA v.1 s.p
  { v.2.writeW r.seq r.addr s.wA o.1 with p := o.2 }.charge (s.cost base mods .none)

/-- A read-modify-write of the accumulator (R152, R260). -/
def modifyA (op : Width → Word → Byte → Word × Byte) (base : Nat) (mods : List CycleMod) (s : State) : State :=
  let o := op s.wA s.readA s.p
  { s.writeA o.1 with p := o.2 }.charge (s.cost base mods .none)

/-- INX, DEX (R270, R272). -/
def countX (op : Width → Word → Word) (base : Nat) (mods : List CycleMod) (s : State) : State :=
  let r := op s.wX s.readX
  ((s.writeX r).putNZ r s.wX).charge (s.cost base mods .none)

/-- INY, DEY (R271, R273). -/
def countY (op : Width → Word → Word) (base : Nat) (mods : List CycleMod) (s : State) : State :=
  let r := op s.wX s.readY
  ((s.writeY r).putNZ r s.wX).charge (s.cost base mods .none)

/-- ORA (d,X), $01 (R240). -/
def execOraDpxind (d : Byte) (s : State) : StepResult :=
  .next (logicA orWord (.mem (.dpxind d)) 6 [.m1, .dl] s)

/-- ORA d,S, $03 (R240). -/
def execOraSr (d : Byte) (s : State) : StepResult :=
  .next (logicA orWord (.mem (.sr d)) 4 [.m1] s)

/-- ORA d, $05 (R240). -/
def execOraDp (d : Byte) (s : State) : StepResult :=
  .next (logicA orWord (.mem (.dp d)) 3 [.m1, .dl] s)

/-- ORA [d], $07 (R240). -/
def execOraDplong (d : Byte) (s : State) : StepResult :=
  .next (logicA orWord (.mem (.dplong d)) 6 [.m1, .dl] s)

/-- ORA #const, $09 (R240). -/
def execOraImmM (k : Imm) (s : State) : StepResult :=
  .next (logicA orWord (.imm k) 2 [.m1] s)

/-- ORA a, $0D (R240). -/
def execOraAbs (a : Word) (s : State) : StepResult :=
  .next (logicA orWord (.mem (.abs a)) 4 [.m1] s)

/-- ORA al, $0F (R240). -/
def execOraLong (al : Addr) (s : State) : StepResult :=
  .next (logicA orWord (.mem (.long al)) 5 [.m1] s)

/-- ORA (d),Y, $11 (R240). -/
def execOraDpindy (d : Byte) (s : State) : StepResult :=
  .next (logicA orWord (.mem (.dpindy d)) 5 [.m1, .dl, .px] s)

/-- ORA (d), $12 (R240). -/
def execOraDpind (d : Byte) (s : State) : StepResult :=
  .next (logicA orWord (.mem (.dpind d)) 5 [.m1, .dl] s)

/-- ORA (d,S),Y, $13 (R240). -/
def execOraSriy (d : Byte) (s : State) : StepResult :=
  .next (logicA orWord (.mem (.sriy d)) 7 [.m1] s)

/-- ORA d,X, $15 (R240). -/
def execOraDpx (d : Byte) (s : State) : StepResult :=
  .next (logicA orWord (.mem (.dpx d)) 4 [.m1, .dl] s)

/-- ORA [d],Y, $17 (R240). -/
def execOraDplongy (d : Byte) (s : State) : StepResult :=
  .next (logicA orWord (.mem (.dplongy d)) 6 [.m1, .dl] s)

/-- ORA a,Y, $19 (R240). -/
def execOraAbsy (a : Word) (s : State) : StepResult :=
  .next (logicA orWord (.mem (.absy a)) 4 [.m1, .px] s)

/-- ORA a,X, $1D (R240). -/
def execOraAbsx (a : Word) (s : State) : StepResult :=
  .next (logicA orWord (.mem (.absx a)) 4 [.m1, .px] s)

/-- ORA al,X, $1F (R240). -/
def execOraLongx (al : Addr) (s : State) : StepResult :=
  .next (logicA orWord (.mem (.longx al)) 5 [.m1] s)

/-- AND (d,X), $21 (R241). -/
def execAndDpxind (d : Byte) (s : State) : StepResult :=
  .next (logicA andWord (.mem (.dpxind d)) 6 [.m1, .dl] s)

/-- AND d,S, $23 (R241). -/
def execAndSr (d : Byte) (s : State) : StepResult :=
  .next (logicA andWord (.mem (.sr d)) 4 [.m1] s)

/-- AND d, $25 (R241). -/
def execAndDp (d : Byte) (s : State) : StepResult :=
  .next (logicA andWord (.mem (.dp d)) 3 [.m1, .dl] s)

/-- AND [d], $27 (R241). -/
def execAndDplong (d : Byte) (s : State) : StepResult :=
  .next (logicA andWord (.mem (.dplong d)) 6 [.m1, .dl] s)

/-- AND #const, $29 (R241). -/
def execAndImmM (k : Imm) (s : State) : StepResult :=
  .next (logicA andWord (.imm k) 2 [.m1] s)

/-- AND a, $2D (R241). -/
def execAndAbs (a : Word) (s : State) : StepResult :=
  .next (logicA andWord (.mem (.abs a)) 4 [.m1] s)

/-- AND al, $2F (R241). -/
def execAndLong (al : Addr) (s : State) : StepResult :=
  .next (logicA andWord (.mem (.long al)) 5 [.m1] s)

/-- AND (d),Y, $31 (R241). -/
def execAndDpindy (d : Byte) (s : State) : StepResult :=
  .next (logicA andWord (.mem (.dpindy d)) 5 [.m1, .dl, .px] s)

/-- AND (d), $32 (R241). -/
def execAndDpind (d : Byte) (s : State) : StepResult :=
  .next (logicA andWord (.mem (.dpind d)) 5 [.m1, .dl] s)

/-- AND (d,S),Y, $33 (R241). -/
def execAndSriy (d : Byte) (s : State) : StepResult :=
  .next (logicA andWord (.mem (.sriy d)) 7 [.m1] s)

/-- AND d,X, $35 (R241). -/
def execAndDpx (d : Byte) (s : State) : StepResult :=
  .next (logicA andWord (.mem (.dpx d)) 4 [.m1, .dl] s)

/-- AND [d],Y, $37 (R241). -/
def execAndDplongy (d : Byte) (s : State) : StepResult :=
  .next (logicA andWord (.mem (.dplongy d)) 6 [.m1, .dl] s)

/-- AND a,Y, $39 (R241). -/
def execAndAbsy (a : Word) (s : State) : StepResult :=
  .next (logicA andWord (.mem (.absy a)) 4 [.m1, .px] s)

/-- AND a,X, $3D (R241). -/
def execAndAbsx (a : Word) (s : State) : StepResult :=
  .next (logicA andWord (.mem (.absx a)) 4 [.m1, .px] s)

/-- AND al,X, $3F (R241). -/
def execAndLongx (al : Addr) (s : State) : StepResult :=
  .next (logicA andWord (.mem (.longx al)) 5 [.m1] s)

/-- EOR (d,X), $41 (R242). -/
def execEorDpxind (d : Byte) (s : State) : StepResult :=
  .next (logicA xorWord (.mem (.dpxind d)) 6 [.m1, .dl] s)

/-- EOR d,S, $43 (R242). -/
def execEorSr (d : Byte) (s : State) : StepResult :=
  .next (logicA xorWord (.mem (.sr d)) 4 [.m1] s)

/-- EOR d, $45 (R242). -/
def execEorDp (d : Byte) (s : State) : StepResult :=
  .next (logicA xorWord (.mem (.dp d)) 3 [.m1, .dl] s)

/-- EOR [d], $47 (R242). -/
def execEorDplong (d : Byte) (s : State) : StepResult :=
  .next (logicA xorWord (.mem (.dplong d)) 6 [.m1, .dl] s)

/-- EOR #const, $49 (R242). -/
def execEorImmM (k : Imm) (s : State) : StepResult :=
  .next (logicA xorWord (.imm k) 2 [.m1] s)

/-- EOR a, $4D (R242). -/
def execEorAbs (a : Word) (s : State) : StepResult :=
  .next (logicA xorWord (.mem (.abs a)) 4 [.m1] s)

/-- EOR al, $4F (R242). -/
def execEorLong (al : Addr) (s : State) : StepResult :=
  .next (logicA xorWord (.mem (.long al)) 5 [.m1] s)

/-- EOR (d),Y, $51 (R242). -/
def execEorDpindy (d : Byte) (s : State) : StepResult :=
  .next (logicA xorWord (.mem (.dpindy d)) 5 [.m1, .dl, .px] s)

/-- EOR (d), $52 (R242). -/
def execEorDpind (d : Byte) (s : State) : StepResult :=
  .next (logicA xorWord (.mem (.dpind d)) 5 [.m1, .dl] s)

/-- EOR (d,S),Y, $53 (R242). -/
def execEorSriy (d : Byte) (s : State) : StepResult :=
  .next (logicA xorWord (.mem (.sriy d)) 7 [.m1] s)

/-- EOR d,X, $55 (R242). -/
def execEorDpx (d : Byte) (s : State) : StepResult :=
  .next (logicA xorWord (.mem (.dpx d)) 4 [.m1, .dl] s)

/-- EOR [d],Y, $57 (R242). -/
def execEorDplongy (d : Byte) (s : State) : StepResult :=
  .next (logicA xorWord (.mem (.dplongy d)) 6 [.m1, .dl] s)

/-- EOR a,Y, $59 (R242). -/
def execEorAbsy (a : Word) (s : State) : StepResult :=
  .next (logicA xorWord (.mem (.absy a)) 4 [.m1, .px] s)

/-- EOR a,X, $5D (R242). -/
def execEorAbsx (a : Word) (s : State) : StepResult :=
  .next (logicA xorWord (.mem (.absx a)) 4 [.m1, .px] s)

/-- EOR al,X, $5F (R242). -/
def execEorLongx (al : Addr) (s : State) : StepResult :=
  .next (logicA xorWord (.mem (.longx al)) 5 [.m1] s)

/-- ADC (d,X), $61 (R243). -/
def execAdcDpxind (d : Byte) (s : State) : StepResult :=
  .next (addA (.mem (.dpxind d)) 6 [.m1, .dl] s)

/-- ADC d,S, $63 (R243). -/
def execAdcSr (d : Byte) (s : State) : StepResult :=
  .next (addA (.mem (.sr d)) 4 [.m1] s)

/-- ADC d, $65 (R243). -/
def execAdcDp (d : Byte) (s : State) : StepResult :=
  .next (addA (.mem (.dp d)) 3 [.m1, .dl] s)

/-- ADC [d], $67 (R243). -/
def execAdcDplong (d : Byte) (s : State) : StepResult :=
  .next (addA (.mem (.dplong d)) 6 [.m1, .dl] s)

/-- ADC #const, $69 (R243). -/
def execAdcImmM (k : Imm) (s : State) : StepResult :=
  .next (addA (.imm k) 2 [.m1] s)

/-- ADC a, $6D (R243). -/
def execAdcAbs (a : Word) (s : State) : StepResult :=
  .next (addA (.mem (.abs a)) 4 [.m1] s)

/-- ADC al, $6F (R243). -/
def execAdcLong (al : Addr) (s : State) : StepResult :=
  .next (addA (.mem (.long al)) 5 [.m1] s)

/-- ADC (d),Y, $71 (R243). -/
def execAdcDpindy (d : Byte) (s : State) : StepResult :=
  .next (addA (.mem (.dpindy d)) 5 [.m1, .dl, .px] s)

/-- ADC (d), $72 (R243). -/
def execAdcDpind (d : Byte) (s : State) : StepResult :=
  .next (addA (.mem (.dpind d)) 5 [.m1, .dl] s)

/-- ADC (d,S),Y, $73 (R243). -/
def execAdcSriy (d : Byte) (s : State) : StepResult :=
  .next (addA (.mem (.sriy d)) 7 [.m1] s)

/-- ADC d,X, $75 (R243). -/
def execAdcDpx (d : Byte) (s : State) : StepResult :=
  .next (addA (.mem (.dpx d)) 4 [.m1, .dl] s)

/-- ADC [d],Y, $77 (R243). -/
def execAdcDplongy (d : Byte) (s : State) : StepResult :=
  .next (addA (.mem (.dplongy d)) 6 [.m1, .dl] s)

/-- ADC a,Y, $79 (R243). -/
def execAdcAbsy (a : Word) (s : State) : StepResult :=
  .next (addA (.mem (.absy a)) 4 [.m1, .px] s)

/-- ADC a,X, $7D (R243). -/
def execAdcAbsx (a : Word) (s : State) : StepResult :=
  .next (addA (.mem (.absx a)) 4 [.m1, .px] s)

/-- ADC al,X, $7F (R243). -/
def execAdcLongx (al : Addr) (s : State) : StepResult :=
  .next (addA (.mem (.longx al)) 5 [.m1] s)

/-- SBC (d,X), $E1 (R244). -/
def execSbcDpxind (d : Byte) (s : State) : StepResult :=
  .next (subA (.mem (.dpxind d)) 6 [.m1, .dl] s)

/-- SBC d,S, $E3 (R244). -/
def execSbcSr (d : Byte) (s : State) : StepResult :=
  .next (subA (.mem (.sr d)) 4 [.m1] s)

/-- SBC d, $E5 (R244). -/
def execSbcDp (d : Byte) (s : State) : StepResult :=
  .next (subA (.mem (.dp d)) 3 [.m1, .dl] s)

/-- SBC [d], $E7 (R244). -/
def execSbcDplong (d : Byte) (s : State) : StepResult :=
  .next (subA (.mem (.dplong d)) 6 [.m1, .dl] s)

/-- SBC #const, $E9 (R244). -/
def execSbcImmM (k : Imm) (s : State) : StepResult :=
  .next (subA (.imm k) 2 [.m1] s)

/-- SBC a, $ED (R244). -/
def execSbcAbs (a : Word) (s : State) : StepResult :=
  .next (subA (.mem (.abs a)) 4 [.m1] s)

/-- SBC al, $EF (R244). -/
def execSbcLong (al : Addr) (s : State) : StepResult :=
  .next (subA (.mem (.long al)) 5 [.m1] s)

/-- SBC (d),Y, $F1 (R244). -/
def execSbcDpindy (d : Byte) (s : State) : StepResult :=
  .next (subA (.mem (.dpindy d)) 5 [.m1, .dl, .px] s)

/-- SBC (d), $F2 (R244). -/
def execSbcDpind (d : Byte) (s : State) : StepResult :=
  .next (subA (.mem (.dpind d)) 5 [.m1, .dl] s)

/-- SBC (d,S),Y, $F3 (R244). -/
def execSbcSriy (d : Byte) (s : State) : StepResult :=
  .next (subA (.mem (.sriy d)) 7 [.m1] s)

/-- SBC d,X, $F5 (R244). -/
def execSbcDpx (d : Byte) (s : State) : StepResult :=
  .next (subA (.mem (.dpx d)) 4 [.m1, .dl] s)

/-- SBC [d],Y, $F7 (R244). -/
def execSbcDplongy (d : Byte) (s : State) : StepResult :=
  .next (subA (.mem (.dplongy d)) 6 [.m1, .dl] s)

/-- SBC a,Y, $F9 (R244). -/
def execSbcAbsy (a : Word) (s : State) : StepResult :=
  .next (subA (.mem (.absy a)) 4 [.m1, .px] s)

/-- SBC a,X, $FD (R244). -/
def execSbcAbsx (a : Word) (s : State) : StepResult :=
  .next (subA (.mem (.absx a)) 4 [.m1, .px] s)

/-- SBC al,X, $FF (R244). -/
def execSbcLongx (al : Addr) (s : State) : StepResult :=
  .next (subA (.mem (.longx al)) 5 [.m1] s)

/-- CMP (d,X), $C1 (R245). -/
def execCmpDpxind (d : Byte) (s : State) : StepResult :=
  .next (compareA (.mem (.dpxind d)) 6 [.m1, .dl] s)

/-- CMP d,S, $C3 (R245). -/
def execCmpSr (d : Byte) (s : State) : StepResult :=
  .next (compareA (.mem (.sr d)) 4 [.m1] s)

/-- CMP d, $C5 (R245). -/
def execCmpDp (d : Byte) (s : State) : StepResult :=
  .next (compareA (.mem (.dp d)) 3 [.m1, .dl] s)

/-- CMP [d], $C7 (R245). -/
def execCmpDplong (d : Byte) (s : State) : StepResult :=
  .next (compareA (.mem (.dplong d)) 6 [.m1, .dl] s)

/-- CMP #const, $C9 (R245). -/
def execCmpImmM (k : Imm) (s : State) : StepResult :=
  .next (compareA (.imm k) 2 [.m1] s)

/-- CMP a, $CD (R245). -/
def execCmpAbs (a : Word) (s : State) : StepResult :=
  .next (compareA (.mem (.abs a)) 4 [.m1] s)

/-- CMP al, $CF (R245). -/
def execCmpLong (al : Addr) (s : State) : StepResult :=
  .next (compareA (.mem (.long al)) 5 [.m1] s)

/-- CMP (d),Y, $D1 (R245). -/
def execCmpDpindy (d : Byte) (s : State) : StepResult :=
  .next (compareA (.mem (.dpindy d)) 5 [.m1, .dl, .px] s)

/-- CMP (d), $D2 (R245). -/
def execCmpDpind (d : Byte) (s : State) : StepResult :=
  .next (compareA (.mem (.dpind d)) 5 [.m1, .dl] s)

/-- CMP (d,S),Y, $D3 (R245). -/
def execCmpSriy (d : Byte) (s : State) : StepResult :=
  .next (compareA (.mem (.sriy d)) 7 [.m1] s)

/-- CMP d,X, $D5 (R245). -/
def execCmpDpx (d : Byte) (s : State) : StepResult :=
  .next (compareA (.mem (.dpx d)) 4 [.m1, .dl] s)

/-- CMP [d],Y, $D7 (R245). -/
def execCmpDplongy (d : Byte) (s : State) : StepResult :=
  .next (compareA (.mem (.dplongy d)) 6 [.m1, .dl] s)

/-- CMP a,Y, $D9 (R245). -/
def execCmpAbsy (a : Word) (s : State) : StepResult :=
  .next (compareA (.mem (.absy a)) 4 [.m1, .px] s)

/-- CMP a,X, $DD (R245). -/
def execCmpAbsx (a : Word) (s : State) : StepResult :=
  .next (compareA (.mem (.absx a)) 4 [.m1, .px] s)

/-- CMP al,X, $DF (R245). -/
def execCmpLongx (al : Addr) (s : State) : StepResult :=
  .next (compareA (.mem (.longx al)) 5 [.m1] s)

/-- CPX #const, $E0 (R246). -/
def execCpxImmX (k : Imm) (s : State) : StepResult :=
  .next (compareX (.imm k) 2 [.x1] s)

/-- CPX d, $E4 (R246). -/
def execCpxDp (d : Byte) (s : State) : StepResult :=
  .next (compareX (.mem (.dp d)) 3 [.x1, .dl] s)

/-- CPX a, $EC (R246). -/
def execCpxAbs (a : Word) (s : State) : StepResult :=
  .next (compareX (.mem (.abs a)) 4 [.x1] s)

/-- CPY #const, $C0 (R247). -/
def execCpyImmX (k : Imm) (s : State) : StepResult :=
  .next (compareY (.imm k) 2 [.x1] s)

/-- CPY d, $C4 (R247). -/
def execCpyDp (d : Byte) (s : State) : StepResult :=
  .next (compareY (.mem (.dp d)) 3 [.x1, .dl] s)

/-- CPY a, $CC (R247). -/
def execCpyAbs (a : Word) (s : State) : StepResult :=
  .next (compareY (.mem (.abs a)) 4 [.x1] s)

/-- BIT d, $24 (R248). -/
def execBitDp (d : Byte) (s : State) : StepResult :=
  .next (bitMem (.dp d) 3 [.m1, .dl] s)

/-- BIT a, $2C (R248). -/
def execBitAbs (a : Word) (s : State) : StepResult :=
  .next (bitMem (.abs a) 4 [.m1] s)

/-- BIT d,X, $34 (R248). -/
def execBitDpx (d : Byte) (s : State) : StepResult :=
  .next (bitMem (.dpx d) 4 [.m1, .dl] s)

/-- BIT a,X, $3C (R248). -/
def execBitAbsx (a : Word) (s : State) : StepResult :=
  .next (bitMem (.absx a) 4 [.m1, .px] s)

/-- BIT #const, $89 (R248). -/
def execBitImmM (k : Imm) (s : State) : StepResult :=
  .next (bitImm k 2 [.m1] s)

/-- ASL d, $06 (R261). -/
def execAslDp (d : Byte) (s : State) : StepResult :=
  .next (modifyMem aslOp (.dp d) 5 [.m2, .dl] s)

/-- ASL A, $0A (R261). -/
def execAslAcc (s : State) : StepResult :=
  .next (modifyA aslOp 2 [] s)

/-- ASL a, $0E (R261). -/
def execAslAbs (a : Word) (s : State) : StepResult :=
  .next (modifyMem aslOp (.abs a) 6 [.m2] s)

/-- ASL d,X, $16 (R261). -/
def execAslDpx (d : Byte) (s : State) : StepResult :=
  .next (modifyMem aslOp (.dpx d) 6 [.m2, .dl] s)

/-- ASL a,X, $1E (R261). -/
def execAslAbsx (a : Word) (s : State) : StepResult :=
  .next (modifyMem aslOp (.absx a) 7 [.m2] s)

/-- LSR d, $46 (R262). -/
def execLsrDp (d : Byte) (s : State) : StepResult :=
  .next (modifyMem lsrOp (.dp d) 5 [.m2, .dl] s)

/-- LSR A, $4A (R262). -/
def execLsrAcc (s : State) : StepResult :=
  .next (modifyA lsrOp 2 [] s)

/-- LSR a, $4E (R262). -/
def execLsrAbs (a : Word) (s : State) : StepResult :=
  .next (modifyMem lsrOp (.abs a) 6 [.m2] s)

/-- LSR d,X, $56 (R262). -/
def execLsrDpx (d : Byte) (s : State) : StepResult :=
  .next (modifyMem lsrOp (.dpx d) 6 [.m2, .dl] s)

/-- LSR a,X, $5E (R262). -/
def execLsrAbsx (a : Word) (s : State) : StepResult :=
  .next (modifyMem lsrOp (.absx a) 7 [.m2] s)

/-- ROL d, $26 (R263). -/
def execRolDp (d : Byte) (s : State) : StepResult :=
  .next (modifyMem rolOp (.dp d) 5 [.m2, .dl] s)

/-- ROL A, $2A (R263). -/
def execRolAcc (s : State) : StepResult :=
  .next (modifyA rolOp 2 [] s)

/-- ROL a, $2E (R263). -/
def execRolAbs (a : Word) (s : State) : StepResult :=
  .next (modifyMem rolOp (.abs a) 6 [.m2] s)

/-- ROL d,X, $36 (R263). -/
def execRolDpx (d : Byte) (s : State) : StepResult :=
  .next (modifyMem rolOp (.dpx d) 6 [.m2, .dl] s)

/-- ROL a,X, $3E (R263). -/
def execRolAbsx (a : Word) (s : State) : StepResult :=
  .next (modifyMem rolOp (.absx a) 7 [.m2] s)

/-- ROR d, $66 (R264). -/
def execRorDp (d : Byte) (s : State) : StepResult :=
  .next (modifyMem rorOp (.dp d) 5 [.m2, .dl] s)

/-- ROR A, $6A (R264). -/
def execRorAcc (s : State) : StepResult :=
  .next (modifyA rorOp 2 [] s)

/-- ROR a, $6E (R264). -/
def execRorAbs (a : Word) (s : State) : StepResult :=
  .next (modifyMem rorOp (.abs a) 6 [.m2] s)

/-- ROR d,X, $76 (R264). -/
def execRorDpx (d : Byte) (s : State) : StepResult :=
  .next (modifyMem rorOp (.dpx d) 6 [.m2, .dl] s)

/-- ROR a,X, $7E (R264). -/
def execRorAbsx (a : Word) (s : State) : StepResult :=
  .next (modifyMem rorOp (.absx a) 7 [.m2] s)

/-- INC A, $1A (R265). -/
def execIncAcc (s : State) : StepResult :=
  .next (modifyA incOp 2 [] s)

/-- INC d, $E6 (R265). -/
def execIncDp (d : Byte) (s : State) : StepResult :=
  .next (modifyMem incOp (.dp d) 5 [.m2, .dl] s)

/-- INC a, $EE (R265). -/
def execIncAbs (a : Word) (s : State) : StepResult :=
  .next (modifyMem incOp (.abs a) 6 [.m2] s)

/-- INC d,X, $F6 (R265). -/
def execIncDpx (d : Byte) (s : State) : StepResult :=
  .next (modifyMem incOp (.dpx d) 6 [.m2, .dl] s)

/-- INC a,X, $FE (R265). -/
def execIncAbsx (a : Word) (s : State) : StepResult :=
  .next (modifyMem incOp (.absx a) 7 [.m2] s)

/-- DEC A, $3A (R266). -/
def execDecAcc (s : State) : StepResult :=
  .next (modifyA decOp 2 [] s)

/-- DEC d, $C6 (R266). -/
def execDecDp (d : Byte) (s : State) : StepResult :=
  .next (modifyMem decOp (.dp d) 5 [.m2, .dl] s)

/-- DEC a, $CE (R266). -/
def execDecAbs (a : Word) (s : State) : StepResult :=
  .next (modifyMem decOp (.abs a) 6 [.m2] s)

/-- DEC d,X, $D6 (R266). -/
def execDecDpx (d : Byte) (s : State) : StepResult :=
  .next (modifyMem decOp (.dpx d) 6 [.m2, .dl] s)

/-- DEC a,X, $DE (R266). -/
def execDecAbsx (a : Word) (s : State) : StepResult :=
  .next (modifyMem decOp (.absx a) 7 [.m2] s)

/-- TSB d, $04 (R267). -/
def execTsbDp (d : Byte) (s : State) : StepResult :=
  .next (modifyMem (tsbOp s.readA) (.dp d) 5 [.m2, .dl] s)

/-- TSB a, $0C (R267). -/
def execTsbAbs (a : Word) (s : State) : StepResult :=
  .next (modifyMem (tsbOp s.readA) (.abs a) 6 [.m2] s)

/-- TRB d, $14 (R268). -/
def execTrbDp (d : Byte) (s : State) : StepResult :=
  .next (modifyMem (trbOp s.readA) (.dp d) 5 [.m2, .dl] s)

/-- TRB a, $1C (R268). -/
def execTrbAbs (a : Word) (s : State) : StepResult :=
  .next (modifyMem (trbOp s.readA) (.abs a) 6 [.m2] s)

/-- INX, $E8 (R270). -/
def execInxImp (s : State) : StepResult :=
  .next (countX inc 2 [] s)

/-- INY, $C8 (R271). -/
def execInyImp (s : State) : StepResult :=
  .next (countY inc 2 [] s)

/-- DEX, $CA (R272). -/
def execDexImp (s : State) : StepResult :=
  .next (countX dec 2 [] s)

/-- DEY, $88 (R273). -/
def execDeyImp (s : State) : StepResult :=
  .next (countY dec 2 [] s)

end Sys2Proof.Machine
end

