-- ==== Sys2Proof/Machine/LoadStore.lean ====
section
/-! DEFINITION. Loads, stores and register transfers (42_load_store_transfer.md, R200 to R219). -/

namespace Sys2Proof.Machine

/-- LDA (R200). -/
def loadA (src : Operand) (base : Nat) (mods : List CycleMod) (s : State) : State :=
  let f := s.operandRead src s.wA
  ((f.st.writeA f.val).putNZ f.val s.wA).charge (s.cost base mods f.info)

/-- LDX (R201). -/
def loadX (src : Operand) (base : Nat) (mods : List CycleMod) (s : State) : State :=
  let f := s.operandRead src s.wX
  ((f.st.writeX f.val).putNZ f.val s.wX).charge (s.cost base mods f.info)

/-- LDY (R202). -/
def loadY (src : Operand) (base : Nat) (mods : List CycleMod) (s : State) : State :=
  let f := s.operandRead src s.wX
  ((f.st.writeY f.val).putNZ f.val s.wX).charge (s.cost base mods f.info)

/-- STA (R203). -/
def storeA (m : DataMode) (base : Nat) (mods : List CycleMod) (s : State) : State :=
  (s.operandWrite m s.wA s.readA).charge (s.cost base mods .none)

/-- STX (R204). -/
def storeX (m : DataMode) (base : Nat) (mods : List CycleMod) (s : State) : State :=
  (s.operandWrite m s.wX s.readX).charge (s.cost base mods .none)

/-- STY (R205). -/
def storeY (m : DataMode) (base : Nat) (mods : List CycleMod) (s : State) : State :=
  (s.operandWrite m s.wX s.readY).charge (s.cost base mods .none)

/-- STZ (R206). -/
def storeZero (m : DataMode) (base : Nat) (mods : List CycleMod) (s : State) : State :=
  (s.operandWrite m s.wA 0).charge (s.cost base mods .none)

/-- A transfer into X: `writeX(v); setNZ(readX(), wX)` (R207, R212, R213). -/
def transferX (v : Word) (base : Nat) (mods : List CycleMod) (s : State) : State :=
  let t := s.writeX v
  (t.putNZ t.readX s.wX).charge (s.cost base mods .none)

/-- A transfer into Y: `writeY(v); setNZ(readY(), wX)` (R208, R211). -/
def transferY (v : Word) (base : Nat) (mods : List CycleMod) (s : State) : State :=
  let t := s.writeY v
  (t.putNZ t.readY s.wX).charge (s.cost base mods .none)

/-- A transfer into A: `writeA(v); setNZ(readA(), wA)` (R209, R210). -/
def transferA (v : Word) (base : Nat) (mods : List CycleMod) (s : State) : State :=
  let t := s.writeA v
  (t.putNZ t.readA s.wA).charge (s.cost base mods .none)

/-- LDA (d,X), $A1 (R200). -/
def execLdaDpxind (d : Byte) (s : State) : StepResult :=
  .next (loadA (.mem (.dpxind d)) 6 [.m1, .dl] s)

/-- LDA d,S, $A3 (R200). -/
def execLdaSr (d : Byte) (s : State) : StepResult :=
  .next (loadA (.mem (.sr d)) 4 [.m1] s)

/-- LDA d, $A5 (R200). -/
def execLdaDp (d : Byte) (s : State) : StepResult :=
  .next (loadA (.mem (.dp d)) 3 [.m1, .dl] s)

/-- LDA [d], $A7 (R200). -/
def execLdaDplong (d : Byte) (s : State) : StepResult :=
  .next (loadA (.mem (.dplong d)) 6 [.m1, .dl] s)

/-- LDA #const, $A9 (R200). -/
def execLdaImmM (k : Imm) (s : State) : StepResult :=
  .next (loadA (.imm k) 2 [.m1] s)

/-- LDA a, $AD (R200). -/
def execLdaAbs (a : Word) (s : State) : StepResult :=
  .next (loadA (.mem (.abs a)) 4 [.m1] s)

/-- LDA al, $AF (R200). -/
def execLdaLong (al : Addr) (s : State) : StepResult :=
  .next (loadA (.mem (.long al)) 5 [.m1] s)

/-- LDA (d),Y, $B1 (R200). -/
def execLdaDpindy (d : Byte) (s : State) : StepResult :=
  .next (loadA (.mem (.dpindy d)) 5 [.m1, .dl, .px] s)

/-- LDA (d), $B2 (R200). -/
def execLdaDpind (d : Byte) (s : State) : StepResult :=
  .next (loadA (.mem (.dpind d)) 5 [.m1, .dl] s)

/-- LDA (d,S),Y, $B3 (R200). -/
def execLdaSriy (d : Byte) (s : State) : StepResult :=
  .next (loadA (.mem (.sriy d)) 7 [.m1] s)

/-- LDA d,X, $B5 (R200). -/
def execLdaDpx (d : Byte) (s : State) : StepResult :=
  .next (loadA (.mem (.dpx d)) 4 [.m1, .dl] s)

/-- LDA [d],Y, $B7 (R200). -/
def execLdaDplongy (d : Byte) (s : State) : StepResult :=
  .next (loadA (.mem (.dplongy d)) 6 [.m1, .dl] s)

/-- LDA a,Y, $B9 (R200). -/
def execLdaAbsy (a : Word) (s : State) : StepResult :=
  .next (loadA (.mem (.absy a)) 4 [.m1, .px] s)

/-- LDA a,X, $BD (R200). -/
def execLdaAbsx (a : Word) (s : State) : StepResult :=
  .next (loadA (.mem (.absx a)) 4 [.m1, .px] s)

/-- LDA al,X, $BF (R200). -/
def execLdaLongx (al : Addr) (s : State) : StepResult :=
  .next (loadA (.mem (.longx al)) 5 [.m1] s)

/-- LDX #const, $A2 (R201). -/
def execLdxImmX (k : Imm) (s : State) : StepResult :=
  .next (loadX (.imm k) 2 [.x1] s)

/-- LDX d, $A6 (R201). -/
def execLdxDp (d : Byte) (s : State) : StepResult :=
  .next (loadX (.mem (.dp d)) 3 [.x1, .dl] s)

/-- LDX a, $AE (R201). -/
def execLdxAbs (a : Word) (s : State) : StepResult :=
  .next (loadX (.mem (.abs a)) 4 [.x1] s)

/-- LDX d,Y, $B6 (R201). -/
def execLdxDpy (d : Byte) (s : State) : StepResult :=
  .next (loadX (.mem (.dpy d)) 4 [.x1, .dl] s)

/-- LDX a,Y, $BE (R201). -/
def execLdxAbsy (a : Word) (s : State) : StepResult :=
  .next (loadX (.mem (.absy a)) 4 [.x1, .px] s)

/-- LDY #const, $A0 (R202). -/
def execLdyImmX (k : Imm) (s : State) : StepResult :=
  .next (loadY (.imm k) 2 [.x1] s)

/-- LDY d, $A4 (R202). -/
def execLdyDp (d : Byte) (s : State) : StepResult :=
  .next (loadY (.mem (.dp d)) 3 [.x1, .dl] s)

/-- LDY a, $AC (R202). -/
def execLdyAbs (a : Word) (s : State) : StepResult :=
  .next (loadY (.mem (.abs a)) 4 [.x1] s)

/-- LDY d,X, $B4 (R202). -/
def execLdyDpx (d : Byte) (s : State) : StepResult :=
  .next (loadY (.mem (.dpx d)) 4 [.x1, .dl] s)

/-- LDY a,X, $BC (R202). -/
def execLdyAbsx (a : Word) (s : State) : StepResult :=
  .next (loadY (.mem (.absx a)) 4 [.x1, .px] s)

/-- STA (d,X), $81 (R203). -/
def execStaDpxind (d : Byte) (s : State) : StepResult :=
  .next (storeA (.dpxind d) 6 [.m1, .dl] s)

/-- STA d,S, $83 (R203). -/
def execStaSr (d : Byte) (s : State) : StepResult :=
  .next (storeA (.sr d) 4 [.m1] s)

/-- STA d, $85 (R203). -/
def execStaDp (d : Byte) (s : State) : StepResult :=
  .next (storeA (.dp d) 3 [.m1, .dl] s)

/-- STA [d], $87 (R203). -/
def execStaDplong (d : Byte) (s : State) : StepResult :=
  .next (storeA (.dplong d) 6 [.m1, .dl] s)

/-- STA a, $8D (R203). -/
def execStaAbs (a : Word) (s : State) : StepResult :=
  .next (storeA (.abs a) 4 [.m1] s)

/-- STA al, $8F (R203). -/
def execStaLong (al : Addr) (s : State) : StepResult :=
  .next (storeA (.long al) 5 [.m1] s)

/-- STA (d),Y, $91 (R203). -/
def execStaDpindy (d : Byte) (s : State) : StepResult :=
  .next (storeA (.dpindy d) 6 [.m1, .dl] s)

/-- STA (d), $92 (R203). -/
def execStaDpind (d : Byte) (s : State) : StepResult :=
  .next (storeA (.dpind d) 5 [.m1, .dl] s)

/-- STA (d,S),Y, $93 (R203). -/
def execStaSriy (d : Byte) (s : State) : StepResult :=
  .next (storeA (.sriy d) 7 [.m1] s)

/-- STA d,X, $95 (R203). -/
def execStaDpx (d : Byte) (s : State) : StepResult :=
  .next (storeA (.dpx d) 4 [.m1, .dl] s)

/-- STA [d],Y, $97 (R203). -/
def execStaDplongy (d : Byte) (s : State) : StepResult :=
  .next (storeA (.dplongy d) 6 [.m1, .dl] s)

/-- STA a,Y, $99 (R203). -/
def execStaAbsy (a : Word) (s : State) : StepResult :=
  .next (storeA (.absy a) 5 [.m1] s)

/-- STA a,X, $9D (R203). -/
def execStaAbsx (a : Word) (s : State) : StepResult :=
  .next (storeA (.absx a) 5 [.m1] s)

/-- STA al,X, $9F (R203). -/
def execStaLongx (al : Addr) (s : State) : StepResult :=
  .next (storeA (.longx al) 5 [.m1] s)

/-- STX d, $86 (R204). -/
def execStxDp (d : Byte) (s : State) : StepResult :=
  .next (storeX (.dp d) 3 [.x1, .dl] s)

/-- STX a, $8E (R204). -/
def execStxAbs (a : Word) (s : State) : StepResult :=
  .next (storeX (.abs a) 4 [.x1] s)

/-- STX d,Y, $96 (R204). -/
def execStxDpy (d : Byte) (s : State) : StepResult :=
  .next (storeX (.dpy d) 4 [.x1, .dl] s)

/-- STY d, $84 (R205). -/
def execStyDp (d : Byte) (s : State) : StepResult :=
  .next (storeY (.dp d) 3 [.x1, .dl] s)

/-- STY a, $8C (R205). -/
def execStyAbs (a : Word) (s : State) : StepResult :=
  .next (storeY (.abs a) 4 [.x1] s)

/-- STY d,X, $94 (R205). -/
def execStyDpx (d : Byte) (s : State) : StepResult :=
  .next (storeY (.dpx d) 4 [.x1, .dl] s)

/-- STZ d, $64 (R206). -/
def execStzDp (d : Byte) (s : State) : StepResult :=
  .next (storeZero (.dp d) 3 [.m1, .dl] s)

/-- STZ d,X, $74 (R206). -/
def execStzDpx (d : Byte) (s : State) : StepResult :=
  .next (storeZero (.dpx d) 4 [.m1, .dl] s)

/-- STZ a, $9C (R206). -/
def execStzAbs (a : Word) (s : State) : StepResult :=
  .next (storeZero (.abs a) 4 [.m1] s)

/-- STZ a,X, $9E (R206). -/
def execStzAbsx (a : Word) (s : State) : StepResult :=
  .next (storeZero (.absx a) 5 [.m1] s)

/-- TAX, $AA (R207). -/
def execTaxImp (s : State) : StepResult :=
  .next (transferX s.c 2 [] s)

/-- TAY, $A8 (R208). -/
def execTayImp (s : State) : StepResult :=
  .next (transferY s.c 2 [] s)

/-- TXA, $8A (R209). -/
def execTxaImp (s : State) : StepResult :=
  .next (transferA s.readX 2 [] s)

/-- TYA, $98 (R210). -/
def execTyaImp (s : State) : StepResult :=
  .next (transferA s.readY 2 [] s)

/-- TXY, $9B (R211). -/
def execTxyImp (s : State) : StepResult :=
  .next (transferY s.readX 2 [] s)

/-- TYX, $BB (R212). -/
def execTyxImp (s : State) : StepResult :=
  .next (transferX s.readY 2 [] s)

/-- TSX, $BA (R213). -/
def execTsxImp (s : State) : StepResult :=
  .next (transferX s.sp 2 [] s)

/-- TXS, $9A (R214). -/
def execTxsImp (s : State) : StepResult :=
  .next ((s.writeS s.readX).charge (s.cost 2 [] .none))

/-- TCS, $1B (R215). -/
def execTcsImp (s : State) : StepResult :=
  .next ((s.writeS s.c).charge (s.cost 2 [] .none))

/-- TSC, $3B (R216). -/
def execTscImp (s : State) : StepResult :=
  .next (({ s with c := s.sp }.putNZ s.sp .w16).charge (s.cost 2 [] .none))

/-- TCD, $5B (R217). -/
def execTcdImp (s : State) : StepResult :=
  .next (({ s with d := s.c }.putNZ s.c .w16).charge (s.cost 2 [] .none))

/-- TDC, $7B (R218). -/
def execTdcImp (s : State) : StepResult :=
  .next (({ s with c := s.d }.putNZ s.d .w16).charge (s.cost 2 [] .none))

/-- XBA, $EB (R219). -/
def execXbaImp (s : State) : StepResult :=
  .next (({ s with c := word (lo s.c) (hi s.c) }.putNZ (zext (hi s.c)) .w8).charge (s.cost 3 [] .none))

end Sys2Proof.Machine
end

