-- ==== Sys2Proof/Machine/ModeFlags.lean ====
section
/-! DEFINITION. The mode controller and the flag instructions (44_mode_flags.md, R280 to R291). -/

namespace Sys2Proof.Machine

/-- XCE (R282): exchange P.C and E, and enter emulation mode (R283) where E becomes 1. -/
def exchangeCarryEmulation (s : State) : State :=
  let t := { s.putFlag .c s.e with e := s.flag .c }
  if t.e then t.enterEmulation else t

/-- A single-flag instruction: one bit of P, written directly (R284 to R290). -/
def flagTo (f : Flag) (b : Bool) (base : Nat) (mods : List CycleMod) (s : State) : State :=
  (s.putFlag f b).charge (s.cost base mods .none)

/-- REP #const8, $C2 (R280). -/
def execRepImm8 (k : Byte) (s : State) : StepResult :=
  .next ((s.setP (s.p &&& ~~~k)).charge (s.cost 3 [] .none))

/-- SEP #const8, $E2 (R281). -/
def execSepImm8 (k : Byte) (s : State) : StepResult :=
  .next ((s.setP (s.p ||| k)).charge (s.cost 3 [] .none))

/-- XCE, $FB (R282). -/
def execXceImp (s : State) : StepResult :=
  .next ((exchangeCarryEmulation s).charge (s.cost 2 [] .none))

/-- CLC, $18 (R284). -/
def execClcImp (s : State) : StepResult :=
  .next (flagTo .c false 2 [] s)

/-- SEC, $38 (R285). -/
def execSecImp (s : State) : StepResult :=
  .next (flagTo .c true 2 [] s)

/-- CLI, $58 (R286). -/
def execCliImp (s : State) : StepResult :=
  .next (flagTo .i false 2 [] s)

/-- SEI, $78 (R287). -/
def execSeiImp (s : State) : StepResult :=
  .next (flagTo .i true 2 [] s)

/-- CLD, $D8 (R288). -/
def execCldImp (s : State) : StepResult :=
  .next (flagTo .d false 2 [] s)

/-- SED, $F8 (R289). -/
def execSedImp (s : State) : StepResult :=
  .next (flagTo .d true 2 [] s)

/-- CLV, $B8 (R290). -/
def execClvImp (s : State) : StepResult :=
  .next (flagTo .v false 2 [] s)

end Sys2Proof.Machine
end

