-- ==== Sys2Proof/Machine/StackControl.lean ====
section
/-! DEFINITION. The stack and control-transfer unit (45_stack_control.md, R304 to R342). PC holds PCnext, the
address of the next instruction, when a meaning runs (R36, R330). -/

namespace Sys2Proof.Machine

/-- The jump target at `(a,X)`: a pointer in the program bank, wrapping inside it (R149). -/
def State.programPointer (s : State) (a : Word) : Word × State :=
  let q := a + s.readX
  let l := s.memRead (addrOf s.pbr q)
  let h := l.2.memRead (addrOf s.pbr (q + 1))
  (word h.1 l.1, h.2)

/-- `PBR <- t[23:16]; PC <- t[15:0]` (R147, R150). -/
def State.jumpLong (s : State) (t : Addr) : State := { s with pbr := alBank t, pc := alOffset t }

/-- A branch (R330, R462): `taken` is its condition; the target stays in the program bank (R151). -/
def branch (taken : Bool) (r : Byte) (base : Nat) (mods : List CycleMod) (s : State) : State :=
  let target := s.pc + sext r
  let info : CycleInfo := { crossed := false, taken := taken, newPage := hi target != hi s.pc }
  { s with pc := if taken then target else s.pc }.charge (s.cost base mods info)

/-- PHA, $48 (R304). -/
def execPhaImp (s : State) : StepResult :=
  .next ((s.pushW s.readA s.wA).charge (s.cost 3 [.m1] .none))

/-- PHX, $DA (R305). -/
def execPhxImp (s : State) : StepResult :=
  .next ((s.pushW s.readX s.wX).charge (s.cost 3 [.x1] .none))

/-- PHY, $5A (R306). -/
def execPhyImp (s : State) : StepResult :=
  .next ((s.pushW s.readY s.wX).charge (s.cost 3 [.x1] .none))

/-- PLA, $68 (R307). -/
def execPlaImp (s : State) : StepResult :=
  let v := s.pullW s.wA
  .next (((v.2.writeA v.1).putNZ v.1 s.wA).charge (s.cost 4 [.m1] .none))

/-- PLX, $FA (R308). -/
def execPlxImp (s : State) : StepResult :=
  let v := s.pullW s.wX
  .next (((v.2.writeX v.1).putNZ v.1 s.wX).charge (s.cost 4 [.x1] .none))

/-- PLY, $7A (R309). -/
def execPlyImp (s : State) : StepResult :=
  let v := s.pullW s.wX
  .next (((v.2.writeY v.1).putNZ v.1 s.wX).charge (s.cost 4 [.x1] .none))

/-- PHP, $08 (R310). -/
def execPhpImp (s : State) : StepResult :=
  .next ((s.push8 s.p).charge (s.cost 3 [] .none))

/-- PLP, $28 (R311). -/
def execPlpImp (s : State) : StepResult :=
  let v := s.pull8
  .next ((v.2.setP v.1).charge (s.cost 4 [] .none))

/-- PHB, $8B (R312). -/
def execPhbImp (s : State) : StepResult :=
  .next ((s.push8 s.dbr).charge (s.cost 3 [] .none))

/-- PLB, $AB (R313). -/
def execPlbImp (s : State) : StepResult :=
  let v := s.pull8
  .next (({ v.2 with dbr := v.1 }.putNZ (zext v.1) .w8).charge (s.cost 4 [] .none))

/-- PHK, $4B (R314). -/
def execPhkImp (s : State) : StepResult :=
  .next ((s.push8 s.pbr).charge (s.cost 3 [] .none))

/-- PHD, $0B (R315). -/
def execPhdImp (s : State) : StepResult :=
  .next ((s.push16 s.d).charge (s.cost 4 [] .none))

/-- PLD, $2B (R316). -/
def execPldImp (s : State) : StepResult :=
  let v := s.pull16
  .next (({ v.2 with d := v.1 }.putNZ v.1 .w16).charge (s.cost 5 [] .none))

/-- PER label, $62 (R317). -/
def execPerRel16 (r : Word) (s : State) : StepResult :=
  .next ((s.push16 (s.pc + r)).charge (s.cost 6 [] .none))

/-- PEA #const16, $F4 (R318). -/
def execPeaImm16 (v : Word) (s : State) : StepResult :=
  .next ((s.push16 v).charge (s.cost 5 [] .none))

/-- PEI (d), $D4 (R319). -/
def execPeiDpind (d : Byte) (s : State) : StepResult :=
  let v := s.read16 .bank0 (addrOf 0x00 (s.d + zext d))
  .next ((v.2.push16 v.1).charge (s.cost 6 [.dl] .none))

/-- JMP a, $4C (R320). -/
def execJmpAbs (a : Word) (s : State) : StepResult :=
  .next ({ s with pc := a }.charge (s.cost 3 [] .none))

/-- JMP (a), $6C (R320). -/
def execJmpAbsind (a : Word) (s : State) : StepResult :=
  let t := s.read16 .bank0 (addrOf 0x00 a)
  .next ({ t.2 with pc := t.1 }.charge (s.cost 5 [] .none))

/-- JMP (a,X), $7C (R320). -/
def execJmpAbsxind (a : Word) (s : State) : StepResult :=
  let t := s.programPointer a
  .next ({ t.2 with pc := t.1 }.charge (s.cost 6 [] .none))

/-- JML al, $5C (R321). -/
def execJmlLong (al : Addr) (s : State) : StepResult :=
  .next ((s.jumpLong al).charge (s.cost 4 [] .none))

/-- JML [a], $DC (R321). -/
def execJmlAbslongind (a : Word) (s : State) : StepResult :=
  let t := s.read24 .bank0 (addrOf 0x00 a)
  .next ((t.2.jumpLong t.1).charge (s.cost 6 [] .none))

/-- JSR a, $20 (R322). -/
def execJsrAbs (a : Word) (s : State) : StepResult :=
  .next ({ s.push16 (s.pc - 1) with pc := a }.charge (s.cost 6 [] .none))

/-- JSR (a,X), $FC (R322). -/
def execJsrAbsxind (a : Word) (s : State) : StepResult :=
  let t := (s.push16 (s.pc - 1)).programPointer a
  .next ({ t.2 with pc := t.1 }.charge (s.cost 8 [] .none))

/-- JSL al, $22 (R323). -/
def execJslLong (al : Addr) (s : State) : StepResult :=
  .next ((((s.push8 s.pbr).push16 (s.pc - 1)).jumpLong al).charge (s.cost 8 [] .none))

/-- RTS, $60 (R324). -/
def execRtsImp (s : State) : StepResult :=
  let v := s.pull16
  .next ({ v.2 with pc := v.1 + 1 }.charge (s.cost 6 [] .none))

/-- RTL, $6B (R325). -/
def execRtlImp (s : State) : StepResult :=
  let v := s.pull16
  let b := v.2.pull8
  .next ({ b.2 with pbr := b.1, pc := v.1 + 1 }.charge (s.cost 6 [] .none))

/-- RTI, $40 (R326). -/
def execRtiImp (s : State) : StepResult :=
  .next (s.returnFromInterrupt.charge (s.cost 6 [.e] .none))

/-- BPL label, $10 (R331). -/
def execBplRel8 (r : Byte) (s : State) : StepResult :=
  .next (branch (!s.flag .n) r 2 [.br] s)

/-- BMI label, $30 (R332). -/
def execBmiRel8 (r : Byte) (s : State) : StepResult :=
  .next (branch (s.flag .n) r 2 [.br] s)

/-- BVC label, $50 (R333). -/
def execBvcRel8 (r : Byte) (s : State) : StepResult :=
  .next (branch (!s.flag .v) r 2 [.br] s)

/-- BVS label, $70 (R334). -/
def execBvsRel8 (r : Byte) (s : State) : StepResult :=
  .next (branch (s.flag .v) r 2 [.br] s)

/-- BCC label, $90 (R335). -/
def execBccRel8 (r : Byte) (s : State) : StepResult :=
  .next (branch (!s.flag .c) r 2 [.br] s)

/-- BCS label, $B0 (R336). -/
def execBcsRel8 (r : Byte) (s : State) : StepResult :=
  .next (branch (s.flag .c) r 2 [.br] s)

/-- BNE label, $D0 (R337). -/
def execBneRel8 (r : Byte) (s : State) : StepResult :=
  .next (branch (!s.flag .z) r 2 [.br] s)

/-- BEQ label, $F0 (R338). -/
def execBeqRel8 (r : Byte) (s : State) : StepResult :=
  .next (branch (s.flag .z) r 2 [.br] s)

/-- BRA label, $80 (R339). -/
def execBraRel8 (r : Byte) (s : State) : StepResult :=
  .next (branch (true) r 3 [.bra] s)

/-- BRL label, $82 (R340). -/
def execBrlRel16 (r : Word) (s : State) : StepResult :=
  .next ({ s with pc := s.pc + r }.charge (s.cost 4 [] .none))

/-- BRK #sig, $00 (R341). -/
def execBrkSig8 (_k : Byte) (s : State) : StepResult :=
  .next ((s.enterInterrupt .brk).charge (s.cost 7 [.e] .none))

/-- COP #sig, $02 (R342). -/
def execCopSig8 (_k : Byte) (s : State) : StepResult :=
  .next ((s.enterInterrupt .cop).charge (s.cost 7 [.e] .none))

end Sys2Proof.Machine
end

