-- ==== Sys2Proof/Machine/System.lean ====
section
/-! DEFINITION. NOP, WDM, the block moves, WAI and STP, the unknown-opcode path and the idle step
(46_system.md, R355 to R367). -/

namespace Sys2Proof.Machine

/-- `BlockStep(delta)` (R362, R155): one byte of a block move. PC goes back to the opcode while the move is not
complete. -/
def blockStep (delta : Word) (dst src : Byte) (s : State) : State :=
  let b := { s with dbr := dst }.memRead (addrOf src s.readX)
  let w := b.2.memWrite (addrOf dst s.readY) b.1
  let t := (w.writeX (s.readX + delta)).writeY (s.readY + delta)
  let c := s.c - 1
  { t with c := c, pc := if c = 0xFFFF then s.pc else s.pc - 3 }

/-- `unknownOpcode(op, pc0)` (R355, R356), with PC already past the opcode byte. -/
def unknownOpcode (op : Byte) (pc0 : Word) (s : State) : State :=
  let t := if s.params.diagEnabled then { s with diag := s.diag ++ [{ pbr := s.pbr, pc := pc0, opcode := op }] } else s
  t.charge s.params.unknownOpcodeCycles.toNat

/-- The idle step of Waiting and Stopped (R367). -/
def idleStep (s : State) : State := s.charge s.params.idleStepCycles.toNat

/-- NOP, $EA (R360). -/
def execNopImp (s : State) : StepResult :=
  .next (s.charge (s.cost 2 [] .none))

/-- WDM #const8, $42 (R361). -/
def execWdmImm8 (_k : Byte) (s : State) : StepResult :=
  .next (s.charge (s.cost 2 [] .none))

/-- MVN srcbk,destbk, $54 (R363). -/
def execMvnBlk (dst : Byte) (src : Byte) (s : State) : StepResult :=
  .next ((blockStep 1 dst src s).charge (s.cost 7 [] .none))

/-- MVP srcbk,destbk, $44 (R364). -/
def execMvpBlk (dst : Byte) (src : Byte) (s : State) : StepResult :=
  .next ((blockStep (-1) dst src s).charge (s.cost 7 [] .none))

/-- WAI, $CB (R365). -/
def execWaiImp (s : State) : StepResult :=
  .next ({ s with run := .waiting }.charge (s.cost 3 [] .none))

/-- STP, $DB (R366). -/
def execStpImp (s : State) : StepResult :=
  .next ({ s with run := .stopped }.charge (s.cost 3 [] .none))

end Sys2Proof.Machine
end

