-- ==== Sys2Proof/Machine/Dispatch.lean ====
section
/-! DEFINITION. The dispatcher (R350 to R352 of 46_system.md): the meaning of every instruction, in opcode order. -/

namespace Sys2Proof.Machine

def exec (i : Instr) (s : State) : Host.Outcome State Fault Refusal :=
  match i with
  | .brkSig8 k => Sys2Proof.Machine.execBrkSig8 k s
  | .oraDpxind d => Sys2Proof.Machine.execOraDpxind d s
  | .copSig8 k => Sys2Proof.Machine.execCopSig8 k s
  | .oraSr d => Sys2Proof.Machine.execOraSr d s
  | .tsbDp d => Sys2Proof.Machine.execTsbDp d s
  | .oraDp d => Sys2Proof.Machine.execOraDp d s
  | .aslDp d => Sys2Proof.Machine.execAslDp d s
  | .oraDplong d => Sys2Proof.Machine.execOraDplong d s
  | .phpImp => Sys2Proof.Machine.execPhpImp s
  | .oraImmM k => Sys2Proof.Machine.execOraImmM k s
  | .aslAcc => Sys2Proof.Machine.execAslAcc s
  | .phdImp => Sys2Proof.Machine.execPhdImp s
  | .tsbAbs a => Sys2Proof.Machine.execTsbAbs a s
  | .oraAbs a => Sys2Proof.Machine.execOraAbs a s
  | .aslAbs a => Sys2Proof.Machine.execAslAbs a s
  | .oraLong al => Sys2Proof.Machine.execOraLong al s
  | .bplRel8 r => Sys2Proof.Machine.execBplRel8 r s
  | .oraDpindy d => Sys2Proof.Machine.execOraDpindy d s
  | .oraDpind d => Sys2Proof.Machine.execOraDpind d s
  | .oraSriy d => Sys2Proof.Machine.execOraSriy d s
  | .trbDp d => Sys2Proof.Machine.execTrbDp d s
  | .oraDpx d => Sys2Proof.Machine.execOraDpx d s
  | .aslDpx d => Sys2Proof.Machine.execAslDpx d s
  | .oraDplongy d => Sys2Proof.Machine.execOraDplongy d s
  | .clcImp => Sys2Proof.Machine.execClcImp s
  | .oraAbsy a => Sys2Proof.Machine.execOraAbsy a s
  | .incAcc => Sys2Proof.Machine.execIncAcc s
  | .tcsImp => Sys2Proof.Machine.execTcsImp s
  | .trbAbs a => Sys2Proof.Machine.execTrbAbs a s
  | .oraAbsx a => Sys2Proof.Machine.execOraAbsx a s
  | .aslAbsx a => Sys2Proof.Machine.execAslAbsx a s
  | .oraLongx al => Sys2Proof.Machine.execOraLongx al s
  | .jsrAbs a => Sys2Proof.Machine.execJsrAbs a s
  | .andDpxind d => Sys2Proof.Machine.execAndDpxind d s
  | .jslLong al => Sys2Proof.Machine.execJslLong al s
  | .andSr d => Sys2Proof.Machine.execAndSr d s
  | .bitDp d => Sys2Proof.Machine.execBitDp d s
  | .andDp d => Sys2Proof.Machine.execAndDp d s
  | .rolDp d => Sys2Proof.Machine.execRolDp d s
  | .andDplong d => Sys2Proof.Machine.execAndDplong d s
  | .plpImp => Sys2Proof.Machine.execPlpImp s
  | .andImmM k => Sys2Proof.Machine.execAndImmM k s
  | .rolAcc => Sys2Proof.Machine.execRolAcc s
  | .pldImp => Sys2Proof.Machine.execPldImp s
  | .bitAbs a => Sys2Proof.Machine.execBitAbs a s
  | .andAbs a => Sys2Proof.Machine.execAndAbs a s
  | .rolAbs a => Sys2Proof.Machine.execRolAbs a s
  | .andLong al => Sys2Proof.Machine.execAndLong al s
  | .bmiRel8 r => Sys2Proof.Machine.execBmiRel8 r s
  | .andDpindy d => Sys2Proof.Machine.execAndDpindy d s
  | .andDpind d => Sys2Proof.Machine.execAndDpind d s
  | .andSriy d => Sys2Proof.Machine.execAndSriy d s
  | .bitDpx d => Sys2Proof.Machine.execBitDpx d s
  | .andDpx d => Sys2Proof.Machine.execAndDpx d s
  | .rolDpx d => Sys2Proof.Machine.execRolDpx d s
  | .andDplongy d => Sys2Proof.Machine.execAndDplongy d s
  | .secImp => Sys2Proof.Machine.execSecImp s
  | .andAbsy a => Sys2Proof.Machine.execAndAbsy a s
  | .decAcc => Sys2Proof.Machine.execDecAcc s
  | .tscImp => Sys2Proof.Machine.execTscImp s
  | .bitAbsx a => Sys2Proof.Machine.execBitAbsx a s
  | .andAbsx a => Sys2Proof.Machine.execAndAbsx a s
  | .rolAbsx a => Sys2Proof.Machine.execRolAbsx a s
  | .andLongx al => Sys2Proof.Machine.execAndLongx al s
  | .rtiImp => Sys2Proof.Machine.execRtiImp s
  | .eorDpxind d => Sys2Proof.Machine.execEorDpxind d s
  | .wdmImm8 k => Sys2Proof.Machine.execWdmImm8 k s
  | .eorSr d => Sys2Proof.Machine.execEorSr d s
  | .mvpBlk dst src => Sys2Proof.Machine.execMvpBlk dst src s
  | .eorDp d => Sys2Proof.Machine.execEorDp d s
  | .lsrDp d => Sys2Proof.Machine.execLsrDp d s
  | .eorDplong d => Sys2Proof.Machine.execEorDplong d s
  | .phaImp => Sys2Proof.Machine.execPhaImp s
  | .eorImmM k => Sys2Proof.Machine.execEorImmM k s
  | .lsrAcc => Sys2Proof.Machine.execLsrAcc s
  | .phkImp => Sys2Proof.Machine.execPhkImp s
  | .jmpAbs a => Sys2Proof.Machine.execJmpAbs a s
  | .eorAbs a => Sys2Proof.Machine.execEorAbs a s
  | .lsrAbs a => Sys2Proof.Machine.execLsrAbs a s
  | .eorLong al => Sys2Proof.Machine.execEorLong al s
  | .bvcRel8 r => Sys2Proof.Machine.execBvcRel8 r s
  | .eorDpindy d => Sys2Proof.Machine.execEorDpindy d s
  | .eorDpind d => Sys2Proof.Machine.execEorDpind d s
  | .eorSriy d => Sys2Proof.Machine.execEorSriy d s
  | .mvnBlk dst src => Sys2Proof.Machine.execMvnBlk dst src s
  | .eorDpx d => Sys2Proof.Machine.execEorDpx d s
  | .lsrDpx d => Sys2Proof.Machine.execLsrDpx d s
  | .eorDplongy d => Sys2Proof.Machine.execEorDplongy d s
  | .cliImp => Sys2Proof.Machine.execCliImp s
  | .eorAbsy a => Sys2Proof.Machine.execEorAbsy a s
  | .phyImp => Sys2Proof.Machine.execPhyImp s
  | .tcdImp => Sys2Proof.Machine.execTcdImp s
  | .jmlLong al => Sys2Proof.Machine.execJmlLong al s
  | .eorAbsx a => Sys2Proof.Machine.execEorAbsx a s
  | .lsrAbsx a => Sys2Proof.Machine.execLsrAbsx a s
  | .eorLongx al => Sys2Proof.Machine.execEorLongx al s
  | .rtsImp => Sys2Proof.Machine.execRtsImp s
  | .adcDpxind d => Sys2Proof.Machine.execAdcDpxind d s
  | .perRel16 r => Sys2Proof.Machine.execPerRel16 r s
  | .adcSr d => Sys2Proof.Machine.execAdcSr d s
  | .stzDp d => Sys2Proof.Machine.execStzDp d s
  | .adcDp d => Sys2Proof.Machine.execAdcDp d s
  | .rorDp d => Sys2Proof.Machine.execRorDp d s
  | .adcDplong d => Sys2Proof.Machine.execAdcDplong d s
  | .plaImp => Sys2Proof.Machine.execPlaImp s
  | .adcImmM k => Sys2Proof.Machine.execAdcImmM k s
  | .rorAcc => Sys2Proof.Machine.execRorAcc s
  | .rtlImp => Sys2Proof.Machine.execRtlImp s
  | .jmpAbsind a => Sys2Proof.Machine.execJmpAbsind a s
  | .adcAbs a => Sys2Proof.Machine.execAdcAbs a s
  | .rorAbs a => Sys2Proof.Machine.execRorAbs a s
  | .adcLong al => Sys2Proof.Machine.execAdcLong al s
  | .bvsRel8 r => Sys2Proof.Machine.execBvsRel8 r s
  | .adcDpindy d => Sys2Proof.Machine.execAdcDpindy d s
  | .adcDpind d => Sys2Proof.Machine.execAdcDpind d s
  | .adcSriy d => Sys2Proof.Machine.execAdcSriy d s
  | .stzDpx d => Sys2Proof.Machine.execStzDpx d s
  | .adcDpx d => Sys2Proof.Machine.execAdcDpx d s
  | .rorDpx d => Sys2Proof.Machine.execRorDpx d s
  | .adcDplongy d => Sys2Proof.Machine.execAdcDplongy d s
  | .seiImp => Sys2Proof.Machine.execSeiImp s
  | .adcAbsy a => Sys2Proof.Machine.execAdcAbsy a s
  | .plyImp => Sys2Proof.Machine.execPlyImp s
  | .tdcImp => Sys2Proof.Machine.execTdcImp s
  | .jmpAbsxind a => Sys2Proof.Machine.execJmpAbsxind a s
  | .adcAbsx a => Sys2Proof.Machine.execAdcAbsx a s
  | .rorAbsx a => Sys2Proof.Machine.execRorAbsx a s
  | .adcLongx al => Sys2Proof.Machine.execAdcLongx al s
  | .braRel8 r => Sys2Proof.Machine.execBraRel8 r s
  | .staDpxind d => Sys2Proof.Machine.execStaDpxind d s
  | .brlRel16 r => Sys2Proof.Machine.execBrlRel16 r s
  | .staSr d => Sys2Proof.Machine.execStaSr d s
  | .styDp d => Sys2Proof.Machine.execStyDp d s
  | .staDp d => Sys2Proof.Machine.execStaDp d s
  | .stxDp d => Sys2Proof.Machine.execStxDp d s
  | .staDplong d => Sys2Proof.Machine.execStaDplong d s
  | .deyImp => Sys2Proof.Machine.execDeyImp s
  | .bitImmM k => Sys2Proof.Machine.execBitImmM k s
  | .txaImp => Sys2Proof.Machine.execTxaImp s
  | .phbImp => Sys2Proof.Machine.execPhbImp s
  | .styAbs a => Sys2Proof.Machine.execStyAbs a s
  | .staAbs a => Sys2Proof.Machine.execStaAbs a s
  | .stxAbs a => Sys2Proof.Machine.execStxAbs a s
  | .staLong al => Sys2Proof.Machine.execStaLong al s
  | .bccRel8 r => Sys2Proof.Machine.execBccRel8 r s
  | .staDpindy d => Sys2Proof.Machine.execStaDpindy d s
  | .staDpind d => Sys2Proof.Machine.execStaDpind d s
  | .staSriy d => Sys2Proof.Machine.execStaSriy d s
  | .styDpx d => Sys2Proof.Machine.execStyDpx d s
  | .staDpx d => Sys2Proof.Machine.execStaDpx d s
  | .stxDpy d => Sys2Proof.Machine.execStxDpy d s
  | .staDplongy d => Sys2Proof.Machine.execStaDplongy d s
  | .tyaImp => Sys2Proof.Machine.execTyaImp s
  | .staAbsy a => Sys2Proof.Machine.execStaAbsy a s
  | .txsImp => Sys2Proof.Machine.execTxsImp s
  | .txyImp => Sys2Proof.Machine.execTxyImp s
  | .stzAbs a => Sys2Proof.Machine.execStzAbs a s
  | .staAbsx a => Sys2Proof.Machine.execStaAbsx a s
  | .stzAbsx a => Sys2Proof.Machine.execStzAbsx a s
  | .staLongx al => Sys2Proof.Machine.execStaLongx al s
  | .ldyImmX k => Sys2Proof.Machine.execLdyImmX k s
  | .ldaDpxind d => Sys2Proof.Machine.execLdaDpxind d s
  | .ldxImmX k => Sys2Proof.Machine.execLdxImmX k s
  | .ldaSr d => Sys2Proof.Machine.execLdaSr d s
  | .ldyDp d => Sys2Proof.Machine.execLdyDp d s
  | .ldaDp d => Sys2Proof.Machine.execLdaDp d s
  | .ldxDp d => Sys2Proof.Machine.execLdxDp d s
  | .ldaDplong d => Sys2Proof.Machine.execLdaDplong d s
  | .tayImp => Sys2Proof.Machine.execTayImp s
  | .ldaImmM k => Sys2Proof.Machine.execLdaImmM k s
  | .taxImp => Sys2Proof.Machine.execTaxImp s
  | .plbImp => Sys2Proof.Machine.execPlbImp s
  | .ldyAbs a => Sys2Proof.Machine.execLdyAbs a s
  | .ldaAbs a => Sys2Proof.Machine.execLdaAbs a s
  | .ldxAbs a => Sys2Proof.Machine.execLdxAbs a s
  | .ldaLong al => Sys2Proof.Machine.execLdaLong al s
  | .bcsRel8 r => Sys2Proof.Machine.execBcsRel8 r s
  | .ldaDpindy d => Sys2Proof.Machine.execLdaDpindy d s
  | .ldaDpind d => Sys2Proof.Machine.execLdaDpind d s
  | .ldaSriy d => Sys2Proof.Machine.execLdaSriy d s
  | .ldyDpx d => Sys2Proof.Machine.execLdyDpx d s
  | .ldaDpx d => Sys2Proof.Machine.execLdaDpx d s
  | .ldxDpy d => Sys2Proof.Machine.execLdxDpy d s
  | .ldaDplongy d => Sys2Proof.Machine.execLdaDplongy d s
  | .clvImp => Sys2Proof.Machine.execClvImp s
  | .ldaAbsy a => Sys2Proof.Machine.execLdaAbsy a s
  | .tsxImp => Sys2Proof.Machine.execTsxImp s
  | .tyxImp => Sys2Proof.Machine.execTyxImp s
  | .ldyAbsx a => Sys2Proof.Machine.execLdyAbsx a s
  | .ldaAbsx a => Sys2Proof.Machine.execLdaAbsx a s
  | .ldxAbsy a => Sys2Proof.Machine.execLdxAbsy a s
  | .ldaLongx al => Sys2Proof.Machine.execLdaLongx al s
  | .cpyImmX k => Sys2Proof.Machine.execCpyImmX k s
  | .cmpDpxind d => Sys2Proof.Machine.execCmpDpxind d s
  | .repImm8 k => Sys2Proof.Machine.execRepImm8 k s
  | .cmpSr d => Sys2Proof.Machine.execCmpSr d s
  | .cpyDp d => Sys2Proof.Machine.execCpyDp d s
  | .cmpDp d => Sys2Proof.Machine.execCmpDp d s
  | .decDp d => Sys2Proof.Machine.execDecDp d s
  | .cmpDplong d => Sys2Proof.Machine.execCmpDplong d s
  | .inyImp => Sys2Proof.Machine.execInyImp s
  | .cmpImmM k => Sys2Proof.Machine.execCmpImmM k s
  | .dexImp => Sys2Proof.Machine.execDexImp s
  | .waiImp => Sys2Proof.Machine.execWaiImp s
  | .cpyAbs a => Sys2Proof.Machine.execCpyAbs a s
  | .cmpAbs a => Sys2Proof.Machine.execCmpAbs a s
  | .decAbs a => Sys2Proof.Machine.execDecAbs a s
  | .cmpLong al => Sys2Proof.Machine.execCmpLong al s
  | .bneRel8 r => Sys2Proof.Machine.execBneRel8 r s
  | .cmpDpindy d => Sys2Proof.Machine.execCmpDpindy d s
  | .cmpDpind d => Sys2Proof.Machine.execCmpDpind d s
  | .cmpSriy d => Sys2Proof.Machine.execCmpSriy d s
  | .peiDpind d => Sys2Proof.Machine.execPeiDpind d s
  | .cmpDpx d => Sys2Proof.Machine.execCmpDpx d s
  | .decDpx d => Sys2Proof.Machine.execDecDpx d s
  | .cmpDplongy d => Sys2Proof.Machine.execCmpDplongy d s
  | .cldImp => Sys2Proof.Machine.execCldImp s
  | .cmpAbsy a => Sys2Proof.Machine.execCmpAbsy a s
  | .phxImp => Sys2Proof.Machine.execPhxImp s
  | .stpImp => Sys2Proof.Machine.execStpImp s
  | .jmlAbslongind a => Sys2Proof.Machine.execJmlAbslongind a s
  | .cmpAbsx a => Sys2Proof.Machine.execCmpAbsx a s
  | .decAbsx a => Sys2Proof.Machine.execDecAbsx a s
  | .cmpLongx al => Sys2Proof.Machine.execCmpLongx al s
  | .cpxImmX k => Sys2Proof.Machine.execCpxImmX k s
  | .sbcDpxind d => Sys2Proof.Machine.execSbcDpxind d s
  | .sepImm8 k => Sys2Proof.Machine.execSepImm8 k s
  | .sbcSr d => Sys2Proof.Machine.execSbcSr d s
  | .cpxDp d => Sys2Proof.Machine.execCpxDp d s
  | .sbcDp d => Sys2Proof.Machine.execSbcDp d s
  | .incDp d => Sys2Proof.Machine.execIncDp d s
  | .sbcDplong d => Sys2Proof.Machine.execSbcDplong d s
  | .inxImp => Sys2Proof.Machine.execInxImp s
  | .sbcImmM k => Sys2Proof.Machine.execSbcImmM k s
  | .nopImp => Sys2Proof.Machine.execNopImp s
  | .xbaImp => Sys2Proof.Machine.execXbaImp s
  | .cpxAbs a => Sys2Proof.Machine.execCpxAbs a s
  | .sbcAbs a => Sys2Proof.Machine.execSbcAbs a s
  | .incAbs a => Sys2Proof.Machine.execIncAbs a s
  | .sbcLong al => Sys2Proof.Machine.execSbcLong al s
  | .beqRel8 r => Sys2Proof.Machine.execBeqRel8 r s
  | .sbcDpindy d => Sys2Proof.Machine.execSbcDpindy d s
  | .sbcDpind d => Sys2Proof.Machine.execSbcDpind d s
  | .sbcSriy d => Sys2Proof.Machine.execSbcSriy d s
  | .peaImm16 v => Sys2Proof.Machine.execPeaImm16 v s
  | .sbcDpx d => Sys2Proof.Machine.execSbcDpx d s
  | .incDpx d => Sys2Proof.Machine.execIncDpx d s
  | .sbcDplongy d => Sys2Proof.Machine.execSbcDplongy d s
  | .sedImp => Sys2Proof.Machine.execSedImp s
  | .sbcAbsy a => Sys2Proof.Machine.execSbcAbsy a s
  | .plxImp => Sys2Proof.Machine.execPlxImp s
  | .xceImp => Sys2Proof.Machine.execXceImp s
  | .jsrAbsxind a => Sys2Proof.Machine.execJsrAbsxind a s
  | .sbcAbsx a => Sys2Proof.Machine.execSbcAbsx a s
  | .incAbsx a => Sys2Proof.Machine.execIncAbsx a s
  | .sbcLongx al => Sys2Proof.Machine.execSbcLongx al s

end Sys2Proof.Machine
end

