-- ==== Sys2Proof/WellFormed.lean ====
section
/-! DEFINITION. Which instructions the core can fetch at given widths: an immediate operand has as many bytes
as P.M (`imm_m`) or P.X (`imm_x`) says (R101, R102 of 30_encoding.md). Every other operand is well formed at
every value: its field has exactly the bits that the format gives it. -/

namespace Sys2Proof

/-- The immediate has as many bits as the width (R103 of 30_encoding.md). -/
def Imm.fits (k : Imm) (w : Width) : Bool :=
  match k, w with
  | .w8 _, .w8 => true
  | .w16 _, .w16 => true
  | .w8 _, .w16 => false
  | .w16 _, .w8 => false

/-- The instruction is one that a fetch at the widths `w` can give (R102 of 30_encoding.md). -/
def Instr.wf (w : Widths) : Instr → Bool
  | .oraImmM k | .andImmM k | .eorImmM k | .adcImmM k | .bitImmM k | .ldaImmM k | .cmpImmM k | .sbcImmM k =>
    k.fits w.m
  | .ldyImmX k | .ldxImmX k | .cpyImmX k | .cpxImmX k =>
    k.fits w.x
  | .brkSig8 _ | .oraDpxind _ | .copSig8 _ | .oraSr _ | .tsbDp _ | .oraDp _ | .aslDp _ | .oraDplong _ | .phpImp |
    .aslAcc | .phdImp | .tsbAbs _ | .oraAbs _ | .aslAbs _ | .oraLong _ | .bplRel8 _ | .oraDpindy _ | .oraDpind _ |
    .oraSriy _ | .trbDp _ | .oraDpx _ | .aslDpx _ | .oraDplongy _ | .clcImp | .oraAbsy _ | .incAcc | .tcsImp |
    .trbAbs _ | .oraAbsx _ | .aslAbsx _ | .oraLongx _ | .jsrAbs _ | .andDpxind _ | .jslLong _ | .andSr _ |
    .bitDp _ | .andDp _ | .rolDp _ | .andDplong _ | .plpImp | .rolAcc | .pldImp | .bitAbs _ | .andAbs _ |
    .rolAbs _ | .andLong _ | .bmiRel8 _ | .andDpindy _ | .andDpind _ | .andSriy _ | .bitDpx _ | .andDpx _ |
    .rolDpx _ | .andDplongy _ | .secImp | .andAbsy _ | .decAcc | .tscImp | .bitAbsx _ | .andAbsx _ | .rolAbsx _ |
    .andLongx _ | .rtiImp | .eorDpxind _ | .wdmImm8 _ | .eorSr _ | .mvpBlk _ _ | .eorDp _ | .lsrDp _ |
    .eorDplong _ | .phaImp | .lsrAcc | .phkImp | .jmpAbs _ | .eorAbs _ | .lsrAbs _ | .eorLong _ | .bvcRel8 _ |
    .eorDpindy _ | .eorDpind _ | .eorSriy _ | .mvnBlk _ _ | .eorDpx _ | .lsrDpx _ | .eorDplongy _ | .cliImp |
    .eorAbsy _ | .phyImp | .tcdImp | .jmlLong _ | .eorAbsx _ | .lsrAbsx _ | .eorLongx _ | .rtsImp | .adcDpxind _ |
    .perRel16 _ | .adcSr _ | .stzDp _ | .adcDp _ | .rorDp _ | .adcDplong _ | .plaImp | .rorAcc | .rtlImp |
    .jmpAbsind _ | .adcAbs _ | .rorAbs _ | .adcLong _ | .bvsRel8 _ | .adcDpindy _ | .adcDpind _ | .adcSriy _ |
    .stzDpx _ | .adcDpx _ | .rorDpx _ | .adcDplongy _ | .seiImp | .adcAbsy _ | .plyImp | .tdcImp | .jmpAbsxind _ |
    .adcAbsx _ | .rorAbsx _ | .adcLongx _ | .braRel8 _ | .staDpxind _ | .brlRel16 _ | .staSr _ | .styDp _ |
    .staDp _ | .stxDp _ | .staDplong _ | .deyImp | .txaImp | .phbImp | .styAbs _ | .staAbs _ | .stxAbs _ |
    .staLong _ | .bccRel8 _ | .staDpindy _ | .staDpind _ | .staSriy _ | .styDpx _ | .staDpx _ | .stxDpy _ |
    .staDplongy _ | .tyaImp | .staAbsy _ | .txsImp | .txyImp | .stzAbs _ | .staAbsx _ | .stzAbsx _ | .staLongx _ |
    .ldaDpxind _ | .ldaSr _ | .ldyDp _ | .ldaDp _ | .ldxDp _ | .ldaDplong _ | .tayImp | .taxImp | .plbImp |
    .ldyAbs _ | .ldaAbs _ | .ldxAbs _ | .ldaLong _ | .bcsRel8 _ | .ldaDpindy _ | .ldaDpind _ | .ldaSriy _ |
    .ldyDpx _ | .ldaDpx _ | .ldxDpy _ | .ldaDplongy _ | .clvImp | .ldaAbsy _ | .tsxImp | .tyxImp | .ldyAbsx _ |
    .ldaAbsx _ | .ldxAbsy _ | .ldaLongx _ | .cmpDpxind _ | .repImm8 _ | .cmpSr _ | .cpyDp _ | .cmpDp _ | .decDp _
    | .cmpDplong _ | .inyImp | .dexImp | .waiImp | .cpyAbs _ | .cmpAbs _ | .decAbs _ | .cmpLong _ | .bneRel8 _ |
    .cmpDpindy _ | .cmpDpind _ | .cmpSriy _ | .peiDpind _ | .cmpDpx _ | .decDpx _ | .cmpDplongy _ | .cldImp |
    .cmpAbsy _ | .phxImp | .stpImp | .jmlAbslongind _ | .cmpAbsx _ | .decAbsx _ | .cmpLongx _ | .sbcDpxind _ |
    .sepImm8 _ | .sbcSr _ | .cpxDp _ | .sbcDp _ | .incDp _ | .sbcDplong _ | .inxImp | .nopImp | .xbaImp |
    .cpxAbs _ | .sbcAbs _ | .incAbs _ | .sbcLong _ | .beqRel8 _ | .sbcDpindy _ | .sbcDpind _ | .sbcSriy _ |
    .peaImm16 _ | .sbcDpx _ | .incDpx _ | .sbcDplongy _ | .sedImp | .sbcAbsy _ | .plxImp | .xceImp | .jsrAbsxind _
    | .sbcAbsx _ | .incAbsx _ | .sbcLongx _ =>
    true

end Sys2Proof
end

