-- ==== Sys2Proof/Decode.lean ====
section
/-! DEFINITION. The decoder and, after it, the encoder (30_encoding.md). The opcode byte alone selects the
instruction (R100, R351); the widths matter only for how many bytes an `imm_m` or `imm_x` operand has (R102). -/

namespace Sys2Proof

/-- What decoding one opcode may look at: the live widths, and the operand bytes in address order. Bytes past
the instruction's length are not looked at. -/
structure OperandBytes where
  w : Widths
  b1 : Byte
  b2 : Byte
  b3 : Byte
deriving DecidableEq, Repr

/-- The immediate of `imm_m` or `imm_x` at a width: low byte first (R103 of 30_encoding.md). -/
def immOf (w : Width) (b1 b2 : Byte) : Imm :=
  match w with
  | .w8 => .w8 b1
  | .w16 => .w16 (word b2 b1)

/-! ### The opcode map of R109: one definition per row (high nibble), one arm per column (low nibble) -/

/-- Row 0x of the opcode map (R109). -/
def decodeRow0 (col : Nat) (o : OperandBytes) : Instr :=
  match col with
  | 0 => .brkSig8 o.b1
  | 1 => .oraDpxind o.b1
  | 2 => .copSig8 o.b1
  | 3 => .oraSr o.b1
  | 4 => .tsbDp o.b1
  | 5 => .oraDp o.b1
  | 6 => .aslDp o.b1
  | 7 => .oraDplong o.b1
  | 8 => .phpImp
  | 9 => .oraImmM (immOf o.w.m o.b1 o.b2)
  | 10 => .aslAcc
  | 11 => .phdImp
  | 12 => .tsbAbs (word o.b2 o.b1)
  | 13 => .oraAbs (word o.b2 o.b1)
  | 14 => .aslAbs (word o.b2 o.b1)
  | _ => .oraLong (o.b3 ++ word o.b2 o.b1)

/-- Row 1x of the opcode map (R109). -/
def decodeRow1 (col : Nat) (o : OperandBytes) : Instr :=
  match col with
  | 0 => .bplRel8 o.b1
  | 1 => .oraDpindy o.b1
  | 2 => .oraDpind o.b1
  | 3 => .oraSriy o.b1
  | 4 => .trbDp o.b1
  | 5 => .oraDpx o.b1
  | 6 => .aslDpx o.b1
  | 7 => .oraDplongy o.b1
  | 8 => .clcImp
  | 9 => .oraAbsy (word o.b2 o.b1)
  | 10 => .incAcc
  | 11 => .tcsImp
  | 12 => .trbAbs (word o.b2 o.b1)
  | 13 => .oraAbsx (word o.b2 o.b1)
  | 14 => .aslAbsx (word o.b2 o.b1)
  | _ => .oraLongx (o.b3 ++ word o.b2 o.b1)

/-- Row 2x of the opcode map (R109). -/
def decodeRow2 (col : Nat) (o : OperandBytes) : Instr :=
  match col with
  | 0 => .jsrAbs (word o.b2 o.b1)
  | 1 => .andDpxind o.b1
  | 2 => .jslLong (o.b3 ++ word o.b2 o.b1)
  | 3 => .andSr o.b1
  | 4 => .bitDp o.b1
  | 5 => .andDp o.b1
  | 6 => .rolDp o.b1
  | 7 => .andDplong o.b1
  | 8 => .plpImp
  | 9 => .andImmM (immOf o.w.m o.b1 o.b2)
  | 10 => .rolAcc
  | 11 => .pldImp
  | 12 => .bitAbs (word o.b2 o.b1)
  | 13 => .andAbs (word o.b2 o.b1)
  | 14 => .rolAbs (word o.b2 o.b1)
  | _ => .andLong (o.b3 ++ word o.b2 o.b1)

/-- Row 3x of the opcode map (R109). -/
def decodeRow3 (col : Nat) (o : OperandBytes) : Instr :=
  match col with
  | 0 => .bmiRel8 o.b1
  | 1 => .andDpindy o.b1
  | 2 => .andDpind o.b1
  | 3 => .andSriy o.b1
  | 4 => .bitDpx o.b1
  | 5 => .andDpx o.b1
  | 6 => .rolDpx o.b1
  | 7 => .andDplongy o.b1
  | 8 => .secImp
  | 9 => .andAbsy (word o.b2 o.b1)
  | 10 => .decAcc
  | 11 => .tscImp
  | 12 => .bitAbsx (word o.b2 o.b1)
  | 13 => .andAbsx (word o.b2 o.b1)
  | 14 => .rolAbsx (word o.b2 o.b1)
  | _ => .andLongx (o.b3 ++ word o.b2 o.b1)

/-- Row 4x of the opcode map (R109). -/
def decodeRow4 (col : Nat) (o : OperandBytes) : Instr :=
  match col with
  | 0 => .rtiImp
  | 1 => .eorDpxind o.b1
  | 2 => .wdmImm8 o.b1
  | 3 => .eorSr o.b1
  | 4 => .mvpBlk o.b1 o.b2
  | 5 => .eorDp o.b1
  | 6 => .lsrDp o.b1
  | 7 => .eorDplong o.b1
  | 8 => .phaImp
  | 9 => .eorImmM (immOf o.w.m o.b1 o.b2)
  | 10 => .lsrAcc
  | 11 => .phkImp
  | 12 => .jmpAbs (word o.b2 o.b1)
  | 13 => .eorAbs (word o.b2 o.b1)
  | 14 => .lsrAbs (word o.b2 o.b1)
  | _ => .eorLong (o.b3 ++ word o.b2 o.b1)

/-- Row 5x of the opcode map (R109). -/
def decodeRow5 (col : Nat) (o : OperandBytes) : Instr :=
  match col with
  | 0 => .bvcRel8 o.b1
  | 1 => .eorDpindy o.b1
  | 2 => .eorDpind o.b1
  | 3 => .eorSriy o.b1
  | 4 => .mvnBlk o.b1 o.b2
  | 5 => .eorDpx o.b1
  | 6 => .lsrDpx o.b1
  | 7 => .eorDplongy o.b1
  | 8 => .cliImp
  | 9 => .eorAbsy (word o.b2 o.b1)
  | 10 => .phyImp
  | 11 => .tcdImp
  | 12 => .jmlLong (o.b3 ++ word o.b2 o.b1)
  | 13 => .eorAbsx (word o.b2 o.b1)
  | 14 => .lsrAbsx (word o.b2 o.b1)
  | _ => .eorLongx (o.b3 ++ word o.b2 o.b1)

/-- Row 6x of the opcode map (R109). -/
def decodeRow6 (col : Nat) (o : OperandBytes) : Instr :=
  match col with
  | 0 => .rtsImp
  | 1 => .adcDpxind o.b1
  | 2 => .perRel16 (word o.b2 o.b1)
  | 3 => .adcSr o.b1
  | 4 => .stzDp o.b1
  | 5 => .adcDp o.b1
  | 6 => .rorDp o.b1
  | 7 => .adcDplong o.b1
  | 8 => .plaImp
  | 9 => .adcImmM (immOf o.w.m o.b1 o.b2)
  | 10 => .rorAcc
  | 11 => .rtlImp
  | 12 => .jmpAbsind (word o.b2 o.b1)
  | 13 => .adcAbs (word o.b2 o.b1)
  | 14 => .rorAbs (word o.b2 o.b1)
  | _ => .adcLong (o.b3 ++ word o.b2 o.b1)

/-- Row 7x of the opcode map (R109). -/
def decodeRow7 (col : Nat) (o : OperandBytes) : Instr :=
  match col with
  | 0 => .bvsRel8 o.b1
  | 1 => .adcDpindy o.b1
  | 2 => .adcDpind o.b1
  | 3 => .adcSriy o.b1
  | 4 => .stzDpx o.b1
  | 5 => .adcDpx o.b1
  | 6 => .rorDpx o.b1
  | 7 => .adcDplongy o.b1
  | 8 => .seiImp
  | 9 => .adcAbsy (word o.b2 o.b1)
  | 10 => .plyImp
  | 11 => .tdcImp
  | 12 => .jmpAbsxind (word o.b2 o.b1)
  | 13 => .adcAbsx (word o.b2 o.b1)
  | 14 => .rorAbsx (word o.b2 o.b1)
  | _ => .adcLongx (o.b3 ++ word o.b2 o.b1)

/-- Row 8x of the opcode map (R109). -/
def decodeRow8 (col : Nat) (o : OperandBytes) : Instr :=
  match col with
  | 0 => .braRel8 o.b1
  | 1 => .staDpxind o.b1
  | 2 => .brlRel16 (word o.b2 o.b1)
  | 3 => .staSr o.b1
  | 4 => .styDp o.b1
  | 5 => .staDp o.b1
  | 6 => .stxDp o.b1
  | 7 => .staDplong o.b1
  | 8 => .deyImp
  | 9 => .bitImmM (immOf o.w.m o.b1 o.b2)
  | 10 => .txaImp
  | 11 => .phbImp
  | 12 => .styAbs (word o.b2 o.b1)
  | 13 => .staAbs (word o.b2 o.b1)
  | 14 => .stxAbs (word o.b2 o.b1)
  | _ => .staLong (o.b3 ++ word o.b2 o.b1)

/-- Row 9x of the opcode map (R109). -/
def decodeRow9 (col : Nat) (o : OperandBytes) : Instr :=
  match col with
  | 0 => .bccRel8 o.b1
  | 1 => .staDpindy o.b1
  | 2 => .staDpind o.b1
  | 3 => .staSriy o.b1
  | 4 => .styDpx o.b1
  | 5 => .staDpx o.b1
  | 6 => .stxDpy o.b1
  | 7 => .staDplongy o.b1
  | 8 => .tyaImp
  | 9 => .staAbsy (word o.b2 o.b1)
  | 10 => .txsImp
  | 11 => .txyImp
  | 12 => .stzAbs (word o.b2 o.b1)
  | 13 => .staAbsx (word o.b2 o.b1)
  | 14 => .stzAbsx (word o.b2 o.b1)
  | _ => .staLongx (o.b3 ++ word o.b2 o.b1)

/-- Row Ax of the opcode map (R109). -/
def decodeRowA (col : Nat) (o : OperandBytes) : Instr :=
  match col with
  | 0 => .ldyImmX (immOf o.w.x o.b1 o.b2)
  | 1 => .ldaDpxind o.b1
  | 2 => .ldxImmX (immOf o.w.x o.b1 o.b2)
  | 3 => .ldaSr o.b1
  | 4 => .ldyDp o.b1
  | 5 => .ldaDp o.b1
  | 6 => .ldxDp o.b1
  | 7 => .ldaDplong o.b1
  | 8 => .tayImp
  | 9 => .ldaImmM (immOf o.w.m o.b1 o.b2)
  | 10 => .taxImp
  | 11 => .plbImp
  | 12 => .ldyAbs (word o.b2 o.b1)
  | 13 => .ldaAbs (word o.b2 o.b1)
  | 14 => .ldxAbs (word o.b2 o.b1)
  | _ => .ldaLong (o.b3 ++ word o.b2 o.b1)

/-- Row Bx of the opcode map (R109). -/
def decodeRowB (col : Nat) (o : OperandBytes) : Instr :=
  match col with
  | 0 => .bcsRel8 o.b1
  | 1 => .ldaDpindy o.b1
  | 2 => .ldaDpind o.b1
  | 3 => .ldaSriy o.b1
  | 4 => .ldyDpx o.b1
  | 5 => .ldaDpx o.b1
  | 6 => .ldxDpy o.b1
  | 7 => .ldaDplongy o.b1
  | 8 => .clvImp
  | 9 => .ldaAbsy (word o.b2 o.b1)
  | 10 => .tsxImp
  | 11 => .tyxImp
  | 12 => .ldyAbsx (word o.b2 o.b1)
  | 13 => .ldaAbsx (word o.b2 o.b1)
  | 14 => .ldxAbsy (word o.b2 o.b1)
  | _ => .ldaLongx (o.b3 ++ word o.b2 o.b1)

/-- Row Cx of the opcode map (R109). -/
def decodeRowC (col : Nat) (o : OperandBytes) : Instr :=
  match col with
  | 0 => .cpyImmX (immOf o.w.x o.b1 o.b2)
  | 1 => .cmpDpxind o.b1
  | 2 => .repImm8 o.b1
  | 3 => .cmpSr o.b1
  | 4 => .cpyDp o.b1
  | 5 => .cmpDp o.b1
  | 6 => .decDp o.b1
  | 7 => .cmpDplong o.b1
  | 8 => .inyImp
  | 9 => .cmpImmM (immOf o.w.m o.b1 o.b2)
  | 10 => .dexImp
  | 11 => .waiImp
  | 12 => .cpyAbs (word o.b2 o.b1)
  | 13 => .cmpAbs (word o.b2 o.b1)
  | 14 => .decAbs (word o.b2 o.b1)
  | _ => .cmpLong (o.b3 ++ word o.b2 o.b1)

/-- Row Dx of the opcode map (R109). -/
def decodeRowD (col : Nat) (o : OperandBytes) : Instr :=
  match col with
  | 0 => .bneRel8 o.b1
  | 1 => .cmpDpindy o.b1
  | 2 => .cmpDpind o.b1
  | 3 => .cmpSriy o.b1
  | 4 => .peiDpind o.b1
  | 5 => .cmpDpx o.b1
  | 6 => .decDpx o.b1
  | 7 => .cmpDplongy o.b1
  | 8 => .cldImp
  | 9 => .cmpAbsy (word o.b2 o.b1)
  | 10 => .phxImp
  | 11 => .stpImp
  | 12 => .jmlAbslongind (word o.b2 o.b1)
  | 13 => .cmpAbsx (word o.b2 o.b1)
  | 14 => .decAbsx (word o.b2 o.b1)
  | _ => .cmpLongx (o.b3 ++ word o.b2 o.b1)

/-- Row Ex of the opcode map (R109). -/
def decodeRowE (col : Nat) (o : OperandBytes) : Instr :=
  match col with
  | 0 => .cpxImmX (immOf o.w.x o.b1 o.b2)
  | 1 => .sbcDpxind o.b1
  | 2 => .sepImm8 o.b1
  | 3 => .sbcSr o.b1
  | 4 => .cpxDp o.b1
  | 5 => .sbcDp o.b1
  | 6 => .incDp o.b1
  | 7 => .sbcDplong o.b1
  | 8 => .inxImp
  | 9 => .sbcImmM (immOf o.w.m o.b1 o.b2)
  | 10 => .nopImp
  | 11 => .xbaImp
  | 12 => .cpxAbs (word o.b2 o.b1)
  | 13 => .sbcAbs (word o.b2 o.b1)
  | 14 => .incAbs (word o.b2 o.b1)
  | _ => .sbcLong (o.b3 ++ word o.b2 o.b1)

/-- Row Fx of the opcode map (R109). -/
def decodeRowF (col : Nat) (o : OperandBytes) : Instr :=
  match col with
  | 0 => .beqRel8 o.b1
  | 1 => .sbcDpindy o.b1
  | 2 => .sbcDpind o.b1
  | 3 => .sbcSriy o.b1
  | 4 => .peaImm16 (word o.b2 o.b1)
  | 5 => .sbcDpx o.b1
  | 6 => .incDpx o.b1
  | 7 => .sbcDplongy o.b1
  | 8 => .sedImp
  | 9 => .sbcAbsy (word o.b2 o.b1)
  | 10 => .plxImp
  | 11 => .xceImp
  | 12 => .jsrAbsxind (word o.b2 o.b1)
  | 13 => .sbcAbsx (word o.b2 o.b1)
  | 14 => .incAbsx (word o.b2 o.b1)
  | _ => .sbcLongx (o.b3 ++ word o.b2 o.b1)

/-- The instruction that an opcode byte selects (R100, R109): total on all 256 bytes (R108, R351). -/
def decodeOp (op : Byte) (o : OperandBytes) : Instr :=
  let col := op.toNat % 16
  match op.toNat / 16 with
  | 0 => decodeRow0 col o
  | 1 => decodeRow1 col o
  | 2 => decodeRow2 col o
  | 3 => decodeRow3 col o
  | 4 => decodeRow4 col o
  | 5 => decodeRow5 col o
  | 6 => decodeRow6 col o
  | 7 => decodeRow7 col o
  | 8 => decodeRow8 col o
  | 9 => decodeRow9 col o
  | 10 => decodeRowA col o
  | 11 => decodeRowB col o
  | 12 => decodeRowC col o
  | 13 => decodeRowD col o
  | 14 => decodeRowE col o
  | _ => decodeRowF col o

/-- How many operand bytes follow an opcode (R101): a fixed number, or one or two as P.M (`im`) or P.X (`ix`)
selects (R102). -/
inductive OperandLen where
  | n0
  | n1
  | n2
  | n3
  | im
  | ix
deriving DecidableEq, Repr

/-- The number of operand bytes at the widths `w` (R102). -/
def OperandLen.count (w : Widths) : OperandLen → Nat
  | .n0 => 0
  | .n1 => 1
  | .n2 => 2
  | .n3 => 3
  | .im => w.m.bits / 8
  | .ix => w.x.bits / 8

/-- The operand lengths by opcode (R101 with R109), rows 0x to 7x. -/
def operandLensLow : List (List OperandLen) := [
  [.n1, .n1, .n1, .n1, .n1, .n1, .n1, .n1, .n0, .im, .n0, .n0, .n2, .n2, .n2, .n3],
  [.n1, .n1, .n1, .n1, .n1, .n1, .n1, .n1, .n0, .n2, .n0, .n0, .n2, .n2, .n2, .n3],
  [.n2, .n1, .n3, .n1, .n1, .n1, .n1, .n1, .n0, .im, .n0, .n0, .n2, .n2, .n2, .n3],
  [.n1, .n1, .n1, .n1, .n1, .n1, .n1, .n1, .n0, .n2, .n0, .n0, .n2, .n2, .n2, .n3],
  [.n0, .n1, .n1, .n1, .n2, .n1, .n1, .n1, .n0, .im, .n0, .n0, .n2, .n2, .n2, .n3],
  [.n1, .n1, .n1, .n1, .n2, .n1, .n1, .n1, .n0, .n2, .n0, .n0, .n3, .n2, .n2, .n3],
  [.n0, .n1, .n2, .n1, .n1, .n1, .n1, .n1, .n0, .im, .n0, .n0, .n2, .n2, .n2, .n3],
  [.n1, .n1, .n1, .n1, .n1, .n1, .n1, .n1, .n0, .n2, .n0, .n0, .n2, .n2, .n2, .n3]]

/-- The operand lengths by opcode (R101 with R109), rows 8x to Fx. -/
def operandLensHigh : List (List OperandLen) := [
  [.n1, .n1, .n2, .n1, .n1, .n1, .n1, .n1, .n0, .im, .n0, .n0, .n2, .n2, .n2, .n3],
  [.n1, .n1, .n1, .n1, .n1, .n1, .n1, .n1, .n0, .n2, .n0, .n0, .n2, .n2, .n2, .n3],
  [.ix, .n1, .ix, .n1, .n1, .n1, .n1, .n1, .n0, .im, .n0, .n0, .n2, .n2, .n2, .n3],
  [.n1, .n1, .n1, .n1, .n1, .n1, .n1, .n1, .n0, .n2, .n0, .n0, .n2, .n2, .n2, .n3],
  [.ix, .n1, .n1, .n1, .n1, .n1, .n1, .n1, .n0, .im, .n0, .n0, .n2, .n2, .n2, .n3],
  [.n1, .n1, .n1, .n1, .n1, .n1, .n1, .n1, .n0, .n2, .n0, .n0, .n2, .n2, .n2, .n3],
  [.ix, .n1, .n1, .n1, .n1, .n1, .n1, .n1, .n0, .im, .n0, .n0, .n2, .n2, .n2, .n3],
  [.n1, .n1, .n1, .n1, .n2, .n1, .n1, .n1, .n0, .n2, .n0, .n0, .n2, .n2, .n2, .n3]]

/-- The number of operand bytes of the opcode `op` at the widths `w` (R102). -/
def operandCount (op : Byte) (w : Widths) : Nat :=
  let row := (operandLensLow ++ operandLensHigh).getD (op.toNat / 16) []
  (row.getD (op.toNat % 16) .n0).count w

/-- The operand bytes as `decodeOp` takes them. -/
def OperandBytes.ofList (w : Widths) (bs : List Byte) : OperandBytes :=
  { w := w, b1 := bs.getD 0 0, b2 := bs.getD 1 0, b3 := bs.getD 2 0 }

/-- Why a string of bytes does not decode. No opcode is among the reasons: all 256 are defined (R108). -/
inductive DecodeError where
  /-- There is no opcode byte. -/
  | noOpcode
  /-- The bytes end before the operand of `opcode` does. -/
  | truncated (opcode : Byte)
deriving DecidableEq, Repr

/-- Decode one instruction from the front of a string of bytes at the widths `w`, and give the bytes after it:
total, refusing by name a string that is too short (R100 to R102). -/
def decode (w : Widths) (bs : List Byte) : Except DecodeError (Instr × List Byte) :=
  match bs with
  | [] => .error .noOpcode
  | op :: rest =>
    if rest.length < operandCount op w then .error (.truncated op)
    else .ok (decodeOp op (.ofList w (rest.take (operandCount op w))), rest.drop (operandCount op w))

/-! ### The encoder -/

/-- The opcode byte of an instruction (R109, the field `match` of spec/opcode_table.json). -/
def Instr.opcode : Instr → Byte
  | .brkSig8 _ => 0x00
  | .oraDpxind _ => 0x01
  | .copSig8 _ => 0x02
  | .oraSr _ => 0x03
  | .tsbDp _ => 0x04
  | .oraDp _ => 0x05
  | .aslDp _ => 0x06
  | .oraDplong _ => 0x07
  | .phpImp => 0x08
  | .oraImmM _ => 0x09
  | .aslAcc => 0x0A
  | .phdImp => 0x0B
  | .tsbAbs _ => 0x0C
  | .oraAbs _ => 0x0D
  | .aslAbs _ => 0x0E
  | .oraLong _ => 0x0F
  | .bplRel8 _ => 0x10
  | .oraDpindy _ => 0x11
  | .oraDpind _ => 0x12
  | .oraSriy _ => 0x13
  | .trbDp _ => 0x14
  | .oraDpx _ => 0x15
  | .aslDpx _ => 0x16
  | .oraDplongy _ => 0x17
  | .clcImp => 0x18
  | .oraAbsy _ => 0x19
  | .incAcc => 0x1A
  | .tcsImp => 0x1B
  | .trbAbs _ => 0x1C
  | .oraAbsx _ => 0x1D
  | .aslAbsx _ => 0x1E
  | .oraLongx _ => 0x1F
  | .jsrAbs _ => 0x20
  | .andDpxind _ => 0x21
  | .jslLong _ => 0x22
  | .andSr _ => 0x23
  | .bitDp _ => 0x24
  | .andDp _ => 0x25
  | .rolDp _ => 0x26
  | .andDplong _ => 0x27
  | .plpImp => 0x28
  | .andImmM _ => 0x29
  | .rolAcc => 0x2A
  | .pldImp => 0x2B
  | .bitAbs _ => 0x2C
  | .andAbs _ => 0x2D
  | .rolAbs _ => 0x2E
  | .andLong _ => 0x2F
  | .bmiRel8 _ => 0x30
  | .andDpindy _ => 0x31
  | .andDpind _ => 0x32
  | .andSriy _ => 0x33
  | .bitDpx _ => 0x34
  | .andDpx _ => 0x35
  | .rolDpx _ => 0x36
  | .andDplongy _ => 0x37
  | .secImp => 0x38
  | .andAbsy _ => 0x39
  | .decAcc => 0x3A
  | .tscImp => 0x3B
  | .bitAbsx _ => 0x3C
  | .andAbsx _ => 0x3D
  | .rolAbsx _ => 0x3E
  | .andLongx _ => 0x3F
  | .rtiImp => 0x40
  | .eorDpxind _ => 0x41
  | .wdmImm8 _ => 0x42
  | .eorSr _ => 0x43
  | .mvpBlk _ _ => 0x44
  | .eorDp _ => 0x45
  | .lsrDp _ => 0x46
  | .eorDplong _ => 0x47
  | .phaImp => 0x48
  | .eorImmM _ => 0x49
  | .lsrAcc => 0x4A
  | .phkImp => 0x4B
  | .jmpAbs _ => 0x4C
  | .eorAbs _ => 0x4D
  | .lsrAbs _ => 0x4E
  | .eorLong _ => 0x4F
  | .bvcRel8 _ => 0x50
  | .eorDpindy _ => 0x51
  | .eorDpind _ => 0x52
  | .eorSriy _ => 0x53
  | .mvnBlk _ _ => 0x54
  | .eorDpx _ => 0x55
  | .lsrDpx _ => 0x56
  | .eorDplongy _ => 0x57
  | .cliImp => 0x58
  | .eorAbsy _ => 0x59
  | .phyImp => 0x5A
  | .tcdImp => 0x5B
  | .jmlLong _ => 0x5C
  | .eorAbsx _ => 0x5D
  | .lsrAbsx _ => 0x5E
  | .eorLongx _ => 0x5F
  | .rtsImp => 0x60
  | .adcDpxind _ => 0x61
  | .perRel16 _ => 0x62
  | .adcSr _ => 0x63
  | .stzDp _ => 0x64
  | .adcDp _ => 0x65
  | .rorDp _ => 0x66
  | .adcDplong _ => 0x67
  | .plaImp => 0x68
  | .adcImmM _ => 0x69
  | .rorAcc => 0x6A
  | .rtlImp => 0x6B
  | .jmpAbsind _ => 0x6C
  | .adcAbs _ => 0x6D
  | .rorAbs _ => 0x6E
  | .adcLong _ => 0x6F
  | .bvsRel8 _ => 0x70
  | .adcDpindy _ => 0x71
  | .adcDpind _ => 0x72
  | .adcSriy _ => 0x73
  | .stzDpx _ => 0x74
  | .adcDpx _ => 0x75
  | .rorDpx _ => 0x76
  | .adcDplongy _ => 0x77
  | .seiImp => 0x78
  | .adcAbsy _ => 0x79
  | .plyImp => 0x7A
  | .tdcImp => 0x7B
  | .jmpAbsxind _ => 0x7C
  | .adcAbsx _ => 0x7D
  | .rorAbsx _ => 0x7E
  | .adcLongx _ => 0x7F
  | .braRel8 _ => 0x80
  | .staDpxind _ => 0x81
  | .brlRel16 _ => 0x82
  | .staSr _ => 0x83
  | .styDp _ => 0x84
  | .staDp _ => 0x85
  | .stxDp _ => 0x86
  | .staDplong _ => 0x87
  | .deyImp => 0x88
  | .bitImmM _ => 0x89
  | .txaImp => 0x8A
  | .phbImp => 0x8B
  | .styAbs _ => 0x8C
  | .staAbs _ => 0x8D
  | .stxAbs _ => 0x8E
  | .staLong _ => 0x8F
  | .bccRel8 _ => 0x90
  | .staDpindy _ => 0x91
  | .staDpind _ => 0x92
  | .staSriy _ => 0x93
  | .styDpx _ => 0x94
  | .staDpx _ => 0x95
  | .stxDpy _ => 0x96
  | .staDplongy _ => 0x97
  | .tyaImp => 0x98
  | .staAbsy _ => 0x99
  | .txsImp => 0x9A
  | .txyImp => 0x9B
  | .stzAbs _ => 0x9C
  | .staAbsx _ => 0x9D
  | .stzAbsx _ => 0x9E
  | .staLongx _ => 0x9F
  | .ldyImmX _ => 0xA0
  | .ldaDpxind _ => 0xA1
  | .ldxImmX _ => 0xA2
  | .ldaSr _ => 0xA3
  | .ldyDp _ => 0xA4
  | .ldaDp _ => 0xA5
  | .ldxDp _ => 0xA6
  | .ldaDplong _ => 0xA7
  | .tayImp => 0xA8
  | .ldaImmM _ => 0xA9
  | .taxImp => 0xAA
  | .plbImp => 0xAB
  | .ldyAbs _ => 0xAC
  | .ldaAbs _ => 0xAD
  | .ldxAbs _ => 0xAE
  | .ldaLong _ => 0xAF
  | .bcsRel8 _ => 0xB0
  | .ldaDpindy _ => 0xB1
  | .ldaDpind _ => 0xB2
  | .ldaSriy _ => 0xB3
  | .ldyDpx _ => 0xB4
  | .ldaDpx _ => 0xB5
  | .ldxDpy _ => 0xB6
  | .ldaDplongy _ => 0xB7
  | .clvImp => 0xB8
  | .ldaAbsy _ => 0xB9
  | .tsxImp => 0xBA
  | .tyxImp => 0xBB
  | .ldyAbsx _ => 0xBC
  | .ldaAbsx _ => 0xBD
  | .ldxAbsy _ => 0xBE
  | .ldaLongx _ => 0xBF
  | .cpyImmX _ => 0xC0
  | .cmpDpxind _ => 0xC1
  | .repImm8 _ => 0xC2
  | .cmpSr _ => 0xC3
  | .cpyDp _ => 0xC4
  | .cmpDp _ => 0xC5
  | .decDp _ => 0xC6
  | .cmpDplong _ => 0xC7
  | .inyImp => 0xC8
  | .cmpImmM _ => 0xC9
  | .dexImp => 0xCA
  | .waiImp => 0xCB
  | .cpyAbs _ => 0xCC
  | .cmpAbs _ => 0xCD
  | .decAbs _ => 0xCE
  | .cmpLong _ => 0xCF
  | .bneRel8 _ => 0xD0
  | .cmpDpindy _ => 0xD1
  | .cmpDpind _ => 0xD2
  | .cmpSriy _ => 0xD3
  | .peiDpind _ => 0xD4
  | .cmpDpx _ => 0xD5
  | .decDpx _ => 0xD6
  | .cmpDplongy _ => 0xD7
  | .cldImp => 0xD8
  | .cmpAbsy _ => 0xD9
  | .phxImp => 0xDA
  | .stpImp => 0xDB
  | .jmlAbslongind _ => 0xDC
  | .cmpAbsx _ => 0xDD
  | .decAbsx _ => 0xDE
  | .cmpLongx _ => 0xDF
  | .cpxImmX _ => 0xE0
  | .sbcDpxind _ => 0xE1
  | .sepImm8 _ => 0xE2
  | .sbcSr _ => 0xE3
  | .cpxDp _ => 0xE4
  | .sbcDp _ => 0xE5
  | .incDp _ => 0xE6
  | .sbcDplong _ => 0xE7
  | .inxImp => 0xE8
  | .sbcImmM _ => 0xE9
  | .nopImp => 0xEA
  | .xbaImp => 0xEB
  | .cpxAbs _ => 0xEC
  | .sbcAbs _ => 0xED
  | .incAbs _ => 0xEE
  | .sbcLong _ => 0xEF
  | .beqRel8 _ => 0xF0
  | .sbcDpindy _ => 0xF1
  | .sbcDpind _ => 0xF2
  | .sbcSriy _ => 0xF3
  | .peaImm16 _ => 0xF4
  | .sbcDpx _ => 0xF5
  | .incDpx _ => 0xF6
  | .sbcDplongy _ => 0xF7
  | .sedImp => 0xF8
  | .sbcAbsy _ => 0xF9
  | .plxImp => 0xFA
  | .xceImp => 0xFB
  | .jsrAbsxind _ => 0xFC
  | .sbcAbsx _ => 0xFD
  | .incAbsx _ => 0xFE
  | .sbcLongx _ => 0xFF

/-- The bytes of an immediate, low byte first (R103). -/
def Imm.bytes : Imm → List Byte
  | .w8 b => [b]
  | .w16 v => [lo v, hi v]

/-- The operand bytes of an instruction in address order (R101, R103 to R107): low byte first, bank byte last;
a block move has its destination bank first (R106). -/
def Instr.operandBytes : Instr → List Byte
  | .brkSig8 k | .copSig8 k | .wdmImm8 k | .repImm8 k | .sepImm8 k =>
    [k]
  | .oraDpxind d | .oraSr d | .tsbDp d | .oraDp d | .aslDp d | .oraDplong d | .oraDpindy d | .oraDpind d |
    .oraSriy d | .trbDp d | .oraDpx d | .aslDpx d | .oraDplongy d | .andDpxind d | .andSr d | .bitDp d | .andDp d
    | .rolDp d | .andDplong d | .andDpindy d | .andDpind d | .andSriy d | .bitDpx d | .andDpx d | .rolDpx d |
    .andDplongy d | .eorDpxind d | .eorSr d | .eorDp d | .lsrDp d | .eorDplong d | .eorDpindy d | .eorDpind d |
    .eorSriy d | .eorDpx d | .lsrDpx d | .eorDplongy d | .adcDpxind d | .adcSr d | .stzDp d | .adcDp d | .rorDp d
    | .adcDplong d | .adcDpindy d | .adcDpind d | .adcSriy d | .stzDpx d | .adcDpx d | .rorDpx d | .adcDplongy d |
    .staDpxind d | .staSr d | .styDp d | .staDp d | .stxDp d | .staDplong d | .staDpindy d | .staDpind d |
    .staSriy d | .styDpx d | .staDpx d | .stxDpy d | .staDplongy d | .ldaDpxind d | .ldaSr d | .ldyDp d | .ldaDp d
    | .ldxDp d | .ldaDplong d | .ldaDpindy d | .ldaDpind d | .ldaSriy d | .ldyDpx d | .ldaDpx d | .ldxDpy d |
    .ldaDplongy d | .cmpDpxind d | .cmpSr d | .cpyDp d | .cmpDp d | .decDp d | .cmpDplong d | .cmpDpindy d |
    .cmpDpind d | .cmpSriy d | .peiDpind d | .cmpDpx d | .decDpx d | .cmpDplongy d | .sbcDpxind d | .sbcSr d |
    .cpxDp d | .sbcDp d | .incDp d | .sbcDplong d | .sbcDpindy d | .sbcDpind d | .sbcSriy d | .sbcDpx d |
    .incDpx d | .sbcDplongy d =>
    [d]
  | .phpImp | .aslAcc | .phdImp | .clcImp | .incAcc | .tcsImp | .plpImp | .rolAcc | .pldImp | .secImp | .decAcc |
    .tscImp | .rtiImp | .phaImp | .lsrAcc | .phkImp | .cliImp | .phyImp | .tcdImp | .rtsImp | .plaImp | .rorAcc |
    .rtlImp | .seiImp | .plyImp | .tdcImp | .deyImp | .txaImp | .phbImp | .tyaImp | .txsImp | .txyImp | .tayImp |
    .taxImp | .plbImp | .clvImp | .tsxImp | .tyxImp | .inyImp | .dexImp | .waiImp | .cldImp | .phxImp | .stpImp |
    .inxImp | .nopImp | .xbaImp | .sedImp | .plxImp | .xceImp =>
    []
  | .oraImmM k | .andImmM k | .eorImmM k | .adcImmM k | .bitImmM k | .ldyImmX k | .ldxImmX k | .ldaImmM k |
    .cpyImmX k | .cmpImmM k | .cpxImmX k | .sbcImmM k =>
    k.bytes
  | .tsbAbs a | .oraAbs a | .aslAbs a | .oraAbsy a | .trbAbs a | .oraAbsx a | .aslAbsx a | .jsrAbs a | .bitAbs a |
    .andAbs a | .rolAbs a | .andAbsy a | .bitAbsx a | .andAbsx a | .rolAbsx a | .jmpAbs a | .eorAbs a | .lsrAbs a
    | .eorAbsy a | .eorAbsx a | .lsrAbsx a | .jmpAbsind a | .adcAbs a | .rorAbs a | .adcAbsy a | .jmpAbsxind a |
    .adcAbsx a | .rorAbsx a | .styAbs a | .staAbs a | .stxAbs a | .staAbsy a | .stzAbs a | .staAbsx a | .stzAbsx a
    | .ldyAbs a | .ldaAbs a | .ldxAbs a | .ldaAbsy a | .ldyAbsx a | .ldaAbsx a | .ldxAbsy a | .cpyAbs a |
    .cmpAbs a | .decAbs a | .cmpAbsy a | .jmlAbslongind a | .cmpAbsx a | .decAbsx a | .cpxAbs a | .sbcAbs a |
    .incAbs a | .sbcAbsy a | .jsrAbsxind a | .sbcAbsx a | .incAbsx a =>
    [lo a, hi a]
  | .oraLong al | .oraLongx al | .jslLong al | .andLong al | .andLongx al | .eorLong al | .jmlLong al |
    .eorLongx al | .adcLong al | .adcLongx al | .staLong al | .staLongx al | .ldaLong al | .ldaLongx al |
    .cmpLong al | .cmpLongx al | .sbcLong al | .sbcLongx al =>
    [alLo al, alHi al, alBank al]
  | .bplRel8 r | .bmiRel8 r | .bvcRel8 r | .bvsRel8 r | .braRel8 r | .bccRel8 r | .bcsRel8 r | .bneRel8 r |
    .beqRel8 r =>
    [r]
  | .mvpBlk dst src | .mvnBlk dst src =>
    [dst, src]
  | .perRel16 r | .brlRel16 r =>
    [lo r, hi r]
  | .peaImm16 v =>
    [lo v, hi v]

/-- The bytes of an instruction: the opcode, then the operand (R100). -/
def encode (i : Instr) : List Byte := i.opcode :: i.operandBytes

/-- The length of an instruction in bytes, 1 to 4 (R8, R100). -/
def Instr.length (i : Instr) : Nat := (encode i).length

/-- The four bytes that the lowest `nbits` bits of `w` stand for, the first byte lowest, bits above `nbits` 0. -/
def tableBytes (nbits w : Nat) : List Byte :=
  let v := w % 2 ^ nbits
  [BitVec.ofNat 8 v, BitVec.ofNat 8 (v >>> 8), BitVec.ofNat 8 (v >>> 16), BitVec.ofNat 8 (v >>> 24)]

/-- The instruction that the decoder reads from an opcode-table word, at the widths that hold after reset, both
8 bits (R454 of 70_reset_and_hazards.md; log 7). -/
def decodeTableWord (nbits w : Nat) : Option Instr :=
  match decode { m := .w8, x := .w8 } (tableBytes nbits w) with
  | .ok (i, _) => some i
  | .error _ => none

end Sys2Proof
end

