-- ==== Sys2Proof/Machine/Fetch.lean ====
section
/-! DEFINITION. Instruction fetch (R100, R102 of 30_encoding.md, R130 of 40_addressing.md): the opcode byte, then
the operand bytes in address order, PC advancing past each before its effect (R36). No byte is fetched ahead
(R83). -/

namespace Sys2Proof.Machine

/-- `Fetch8()` (R130): PC wraps inside the program bank. -/
def State.fetch8 (s : State) : Byte × State :=
  let b := s.memRead (addrOf s.pbr s.pc)
  (b.1, { b.2 with pc := s.pc + 1 })

/-- `n` operand bytes, in address order (R75). -/
def State.fetchBytes : Nat → State → List Byte × State
  | 0, s => ([], s)
  | n + 1, s =>
    let b := s.fetch8
    let rest := State.fetchBytes n b.2
    (b.1 :: rest.1, rest.2)

/-- Whether an opcode byte is unknown to this core (R111, R355). -/
def State.unknownOp (s : State) (op : Byte) : Bool := s.params.unimplemented.contains op

/-- The instruction whose opcode byte `op` has just been fetched: its operand bytes are fetched at the widths of
the current P (R102), so that PC ends at PCnext (R36). -/
def State.fetchOperands (s : State) (op : Byte) : Instr × State :=
  let bs := State.fetchBytes (operandCount op s.widths) s
  (decodeOp op (.ofList s.widths bs.1), bs.2)

/-- The bytes of `bs` written to the program bank at PC, PC + 1, ... (wrapping as PC does). -/
def State.placeBytes (s : State) : List Byte → State
  | bs => { s with mem := (bs.zipIdx.foldl (fun m b =>
      Memory.write m (addrOf s.pbr (s.pc + BitVec.ofNat 16 b.2)).toNat b.1) s.mem) }

end Sys2Proof.Machine
end

