-- ==== Sys2Proof/Machine/Step.lean ====
section
/-! DEFINITION. One call of `step` (R350 of 46_system.md): idle, or an unknown opcode, or one instruction. -/

namespace Sys2Proof.Machine

/-- `step()` (R350). The amount it adds to `cycles` is what it returns (D32; log 10). -/
def step (s : State) : Host.Outcome State Fault Refusal :=
  if s.run = .running then
    let op := s.fetch8
    if s.unknownOp op.1 then .next (unknownOpcode op.1 s.pc op.2)
    else
      let i := op.2.fetchOperands op.1
      exec i.1 i.2
  else .next (idleStep s)

/-- The state with the instruction of an opcode-table word placed where the next step fetches it, at PBR:PC. The
core runs, the opcode is implemented and no answer is a free value, so that the next step runs exactly it
(log 6). -/
def State.withFetchWord (s : State) (nbits w : Nat) : State :=
  let bs := tableBytes nbits w
  { s.placeBytes bs with
    run := .running
    params := { s.params with
      unimplemented := s.params.unimplemented.filter (· != bs.getD 0 0)
      oracleRanges := [] } }

end Sys2Proof.Machine
end

