-- ==== Sys2Proof/Machine/HostCalls.lean ====
section
/-! DEFINITION. The host's side of the block (R7 of 00_scope.md): `new` and `reset` (70_reset_and_hazards.md),
`interrupt` (60_exceptions.md), the register accessors (R60 to R62 of 10_state.md), and one function over all
the calls that change the state. The host makes them between steps; `step` itself takes no interrupt (R350). -/

namespace Sys2Proof.Machine

/-- The power-on pattern of R450 applied to every register, E, `run` and `cycles`; memory, the parameters and the
recorded events are kept (R452). -/
def State.powerOn (s : State) : State :=
  { s with
    c := 0x0000, x := 0x0000, y := 0x0000, sp := 0x01FF, d := 0x0000, dbr := 0x00, pbr := 0x00, pc := 0x0000
    p := 0x34, e := true, run := .running, cycles := 0 }

/-- `new(mem)` (R451): the power-on pattern, with no call of the collaborator. -/
def State.new (mem : Memory) (params : Params) : State :=
  State.powerOn { State.reset with mem := mem, params := params, trace := [], diag := [] }

/-- `reset()` (R452, R453): the power-on pattern, then PC from the reset vector at $00:FFFC. -/
def hostReset (s : State) : State :=
  let v := s.powerOn.read16 .bank0 0x00FFFC
  { v.2 with pc := v.1 }

/-- The kinds that `interrupt` accepts (R410, R411). -/
inductive InterruptKind where
  | irq
  | nmi
deriving DecidableEq, Repr

/-- The entry that an interrupt of a kind makes (R401). -/
def InterruptKind.entry : InterruptKind → EntryKind
  | .irq => .irq
  | .nmi => .nmi

/-- The cost of a delivered interrupt, by E before entry (R412). -/
def State.interruptCycles (s : State) : BitVec 32 :=
  if s.e then s.params.interruptEntryCyclesEmu else s.params.interruptEntryCyclesNative

/-- `interrupt(kind)` (R410): what it returns, and the state after it. -/
def interrupt (k : InterruptKind) (s : State) : BitVec 32 × State :=
  if s.run = .stopped then (0, s)
  else if k = .irq && s.flag .i then
    (0, if s.run = .waiting && s.params.waiWakeOnMaskedIrq then { s with run := .running } else s)
  else
    (s.interruptCycles, (({ s with run := .running }.enterInterrupt k.entry).charge s.interruptCycles.toNat))

/-- What `step` returns where it leads from `s` to `t`: the u32 it adds to `cycles` (R350, D32; log 10). -/
def stepReturn (s t : State) : BitVec 32 := (t.cycles - s.cycles).setWidth 32

/-! ### Accessors -/

/-- `get_a()` (R60). -/
def getA (s : State) : Word := s.readA

/-- `get_x()` (R60). -/
def getX (s : State) : Word := s.readX

/-- `get_y()` (R60). -/
def getY (s : State) : Word := s.readY

/-- `get_c()` (R61). -/
def getC (s : State) : Word := s.c

/-- `get_s()` (R61). -/
def getS (s : State) : Word := s.sp

/-- `get_d()` (R61). -/
def getD (s : State) : Word := s.d

/-- `get_dbr()` (R61). -/
def getDbr (s : State) : Byte := s.dbr

/-- `get_pbr()` (R61). -/
def getPbr (s : State) : Byte := s.pbr

/-- `get_pc()` (R61). -/
def getPc (s : State) : Word := s.pc

/-- `get_p()` (R61). -/
def getP (s : State) : Byte := s.p

/-- `get_e()` (R62). -/
def getE (s : State) : Bool := s.e

/-- `get_cycles()` (R62). -/
def getCycles (s : State) : BitVec 64 := s.cycles

/-- `get_run()` (R62). -/
def getRun (s : State) : RunState := s.run

/-- `set_a(v)` (R60). -/
def setA (v : Word) (s : State) : State := s.writeA v

/-- `set_x(v)` (R60). -/
def setX (v : Word) (s : State) : State := s.writeX v

/-- `set_y(v)` (R60). -/
def setY (v : Word) (s : State) : State := s.writeY v

/-- `set_c(v)` (R61). -/
def setC (v : Word) (s : State) : State := { s with c := v }

/-- `set_s(v)` (R61): pinned to page $01 in emulation mode. -/
def setS (v : Word) (s : State) : State := s.writeS v

/-- `set_d(v)` (R61). -/
def setD (v : Word) (s : State) : State := { s with d := v }

/-- `set_dbr(v)` (R61). -/
def setDbr (v : Byte) (s : State) : State := { s with dbr := v }

/-- `set_pbr(v)` (R61). -/
def setPbr (v : Byte) (s : State) : State := { s with pbr := v }

/-- `set_pc(v)` (R61). -/
def setPc (v : Word) (s : State) : State := { s with pc := v }

/-- `set_p(v)` (R61): through `setP` (R43). -/
def setStatus (v : Byte) (s : State) : State := s.setP v

/-! ### Every host call that changes the state -/

/-- The calls of R7 that change the state of an existing core. -/
inductive HostCall where
  | reset
  | step
  | interrupt (k : InterruptKind)
  | setA (v : Word)
  | setX (v : Word)
  | setY (v : Word)
  | setC (v : Word)
  | setS (v : Word)
  | setD (v : Word)
  | setDbr (v : Byte)
  | setPbr (v : Byte)
  | setPc (v : Word)
  | setP (v : Byte)
deriving DecidableEq, Repr

/-- One host call. -/
def hostCall (h : HostCall) (s : State) : StepResult :=
  match h with
  | .reset => .next (hostReset s)
  | .step => step s
  | .interrupt k => .next (interrupt k s).2
  | .setA v => .next (setA v s)
  | .setX v => .next (setX v s)
  | .setY v => .next (setY v s)
  | .setC v => .next (setC v s)
  | .setS v => .next (setS v s)
  | .setD v => .next (setD v s)
  | .setDbr v => .next (setDbr v s)
  | .setPbr v => .next (setPbr v s)
  | .setPc v => .next (setPc v s)
  | .setP v => .next (setStatus v s)

/-- A host's calls, in order (R413: the call order is the priority order), stopping where one stops. -/
def hostRun : List HostCall → State → StepResult
  | [], s => .next s
  | h :: rest, s =>
    match hostCall h s with
    | .next t => hostRun rest t
    | .fault r => .fault r
    | .refused r => .refused r

end Sys2Proof.Machine
end

