-- ==== Sys2Proof/Safety.lean ====
section
/-! DEFINITION. The terms that claims about the machine are stated in: the invariants that the spec's prose
promises, frames, the answers of the collaborator, the forms of each instruction, and the cycle grid of R464. -/

namespace Sys2Proof.Safety

open Sys2Proof.Machine

/-! ### Invariants -/

/-- The emulation-mode invariant of R39: while E = 1, both widths are 8 bits, the stack is in page $01 and the
index high bytes are 0. -/
abbrev EmulationPinned (s : State) : Prop :=
  s.e = true → s.flag .m = true ∧ s.flag .x = true ∧ hi s.sp = 0x01 ∧ hi s.x = 0x00 ∧ hi s.y = 0x00

/-- The policy Zero of R42: "the high byte is 0 whenever P.X = 1". -/
abbrev ZeroPolicyClears (s : State) : Prop :=
  s.params.indexNarrow = .zero → s.flag .x = true → hi s.x = 0x00 ∧ hi s.y = 0x00

/-- What holds of every state between two host calls: R39, R42, and the canonical form of memory. -/
abbrev Inv (s : State) : Prop :=
  EmulationPinned s ∧ ZeroPolicyClears s ∧ Memory.wf s.mem = true

/-! ### Frames -/

/-- The registers that are not P, by name. -/
inductive Reg where
  | c
  | x
  | y
  | sp
  | d
  | dbr
  | pbr
  | pc
  | e
  | run
deriving DecidableEq, Repr

/-- The number a run state stands for in a frame. -/
def runNumber : RunState → Nat
  | .running => 0
  | .waiting => 1
  | .stopped => 2

/-- The contents of a register, as a number. -/
def reg (s : State) : Reg → Nat
  | .c => s.c.toNat
  | .x => s.x.toNat
  | .y => s.y.toNat
  | .sp => s.sp.toNat
  | .d => s.d.toNat
  | .dbr => s.dbr.toNat
  | .pbr => s.pbr.toNat
  | .pc => s.pc.toNat
  | .e => s.e.toNat
  | .run => runNumber s.run

/-- From `s` to `t`, every register but those listed, every flag but those listed, the diagnostic records and the
parameters are unchanged (R46). -/
def Keeps (regs : List Reg) (flags : List Flag) (s t : State) : Prop :=
  (∀ r, r ∉ regs → reg t r = reg s r) ∧ (∀ f, f ∉ flags → t.flag f = s.flag f) ∧
    t.diag = s.diag ∧ t.params = s.params

/-- Every byte of memory reads as before, but those at the listed addresses. -/
def MemKeptBut (addrs : List Addr) (s t : State) : Prop :=
  ∀ a : Nat, a ∉ addrs.map BitVec.toNat → Memory.read t.mem a = Memory.read s.mem a

/-- `t` holds the value `v`, written to the accumulator at the width of `s` (R41). -/
def WritesA (s t : State) (v : Word) : Prop :=
  if s.flag .m then lo t.c = lo v ∧ hi t.c = hi s.c else t.c = v

/-- `new` is what an index register that held `old` holds after `v` is written to it in `s` (R42; the high byte at 8 bits is
the spec's decision D9). -/
def WritesIndex (s : State) (old new v : Word) : Prop :=
  if s.flag .x then
    lo new = lo v ∧ hi new = (if s.params.indexNarrow = .zero then 0x00 else hi old)
  else new = v

/-- N and Z of `t` are those of the value `v` at the width `w` (R15). -/
def NZ (t : State) (v : Word) (w : Width) : Prop :=
  t.flag .z = decide (v.toNat % 2 ^ w.bits = 0) ∧ t.flag .n = decide (2 ^ (w.bits - 1) ≤ v.toNat % 2 ^ w.bits)

/-! ### The collaborator's answers -/

/-- What the collaborator answers if its next calls read the listed addresses, in order (R76). -/
def answers : State → List Addr → List Byte
  | _, [] => []
  | s, a :: rest => s.answer a :: answers (s.record (.read a (s.answer a))) rest

/-- The events those calls record (R13). -/
def readEvents (s : State) (addrs : List Addr) : List BusEvent :=
  (addrs.zip (answers s addrs)).map fun p => .read p.1 p.2

/-- The number that bytes stand for, low byte first (R73). -/
def littleEndian : List Byte → Nat
  | [] => 0
  | b :: rest => b.toNat + 2 ^ 8 * littleEndian rest

/-- The address `offset mod 2^16` of bank $00. -/
def bank0 (offset : Nat) : Addr := BitVec.ofNat 24 (offset % 2 ^ 16)

/-- The addresses of the `n` bytes of a value at `a`, in the order of the sequence `q` (R86). -/
def byteAddrs (q : Seq) (a : Addr) (n : Nat) : List Addr :=
  (List.range n).map fun k =>
    match q with
    | .bank0 => bank0 (a.toNat + k)
    | .long => BitVec.ofNat 24 (a.toNat + k)

/-- The bytes of a value at a width, low byte first. -/
def valueBytes (v : Word) : Width → List Byte
  | .w8 => [lo v]
  | .w16 => [lo v, hi v]

/-- The events of writing bytes at addresses, in order (R13). -/
def writeEvents (addrs : List Addr) (bytes : List Byte) : List BusEvent :=
  (addrs.zip bytes).map fun p => .write p.1 p.2

/-- Memory after the events, taken in order: a write sets its byte, a read changes nothing (R70, R76). -/
def replay (m : Memory) (evs : List BusEvent) : Memory :=
  evs.foldl (fun m ev =>
    match ev with
    | .read _ _ => m
    | .write a v => Memory.write m a.toNat v) m

/-! ### The stack (R300 to R302) -/

/-- The address that the push number `k` of an instruction writes, from 0: in emulation mode every later one stays
in page $01, in native mode S wraps in 16 bits (R300). -/
def pushAddr (s : State) : Nat → Addr
  | 0 => bank0 s.sp.toNat
  | k + 1 =>
    if s.e then bank0 (2 ^ 8 + (s.sp.toNat % 2 ^ 8 + 2 ^ 8 - (k + 1)) % 2 ^ 8)
    else bank0 (s.sp.toNat + 2 ^ 16 - (k + 1))

/-- The addresses of `n` pushes, in order. -/
def pushAddrs (s : State) (n : Nat) : List Addr := (List.range n).map (pushAddr s)

/-- S after `n` pushes (R300). -/
def spAfterPushes (s : State) (n : Nat) : Word := BitVec.ofNat 16 (pushAddr s n).toNat

/-- The address that the pull number `k` of an instruction reads, from 0 (R301). -/
def pullAddr (s : State) (k : Nat) : Addr :=
  if s.e then bank0 (2 ^ 8 + (s.sp.toNat % 2 ^ 8 + k + 1) % 2 ^ 8) else bank0 (s.sp.toNat + k + 1)

/-- The addresses of `n` pulls, in order. -/
def pullAddrs (s : State) (n : Nat) : List Addr := (List.range n).map (pullAddr s)

/-- S after `n + 1` pulls (R301). -/
def spAfterPulls (s : State) (n : Nat) : Word := BitVec.ofNat 16 (pullAddr s n).toNat

/-- From `s` to `t`, the bytes are stored at the addresses, in order, every other byte of memory is kept, and
the recorded calls are `before` and then those writes. -/
def Stores (addrs : List Addr) (bytes : List Byte) (before : List BusEvent) (s t : State) : Prop :=
  (∀ p ∈ addrs.zip bytes, Memory.read t.mem p.1.toNat = p.2) ∧ MemKeptBut addrs s t ∧
    t.trace = s.trace ++ before ++ writeEvents addrs bytes

/-- From `s` to `t`, the bytes are pushed in order after the calls `before` (R300). -/
def Pushes (bytes : List Byte) (before : List BusEvent) (s t : State) : Prop :=
  Stores (pushAddrs s bytes.length) bytes before s t ∧ t.sp = spAfterPushes s bytes.length

/-- From `s` to `t`, `n + 1` bytes are pulled and memory is kept (R301). -/
def Pulls (n : Nat) (s t : State) : Prop :=
  MemKeptBut [] s t ∧ t.trace = s.trace ++ readEvents s (pullAddrs s (n + 1)) ∧ t.sp = spAfterPulls s n

/-- The number that `n + 1` pulled bytes stand for, low byte first (R302). -/
def pulled (s : State) (n : Nat) : Nat := littleEndian (answers s (pullAddrs s (n + 1)))

/-- `t` has the status `v` as `setP` writes it in `s`, and the index registers that leaves (R43; D9). -/
def StatusSet (s t : State) (v : Byte) : Prop :=
  t.p = (if s.e then v ||| 0x30 else v) ∧
    (if s.params.indexNarrow = .zero ∧ t.flag .x = true then
      lo t.x = lo s.x ∧ hi t.x = 0x00 ∧ lo t.y = lo s.y ∧ hi t.y = 0x00
    else t.x = s.x ∧ t.y = s.y)

/-- The bytes that interrupt entry pushes, in push order: PBR in native mode only, PC high byte first, then P,
whose bit 4 a hardware event clears in emulation mode (R404, R405). -/
def entryBytes (s : State) (k : EntryKind) : List Byte :=
  let p := if s.e = true ∧ (k = .irq ∨ k = .nmi) then withFlag s.p .x false else s.p
  if s.e then [hi s.pc, lo s.pc, p] else [s.pbr, hi s.pc, lo s.pc, p]

/-- The vector addresses of R403, as numbers. -/
def vectorOf (e : Bool) : EntryKind → Nat
  | .cop => if e then 0xFFF4 else 0xFFE4
  | .brk => if e then 0xFFFE else 0xFFE6
  | .nmi => if e then 0xFFFA else 0xFFEA
  | .irq => if e then 0xFFFE else 0xFFEE

/-- From `s` to `t`, the core has entered the handler of the event `k` (R403 to R405): the pushes, then the two
reads of the vector, I set, D clear, PBR $00, PC at the handler, and nothing else changed. -/
def Enters (k : EntryKind) (s t : State) : Prop :=
  let bytes := entryBytes s k
  let addrs := pushAddrs s bytes.length
  let pushed := writeEvents addrs bytes
  let v := [bank0 (vectorOf s.e k), bank0 (vectorOf s.e k + 1)]
  let u := { s with mem := replay s.mem pushed, trace := s.trace ++ pushed }
  (∀ p ∈ addrs.zip bytes, Memory.read t.mem p.1.toNat = p.2) ∧ MemKeptBut addrs s t ∧
    t.trace = s.trace ++ pushed ++ readEvents u v ∧
    t.sp = spAfterPushes s bytes.length ∧
    t.pc.toNat = littleEndian (answers u v) ∧ t.pbr = 0x00 ∧ t.flag .i = true ∧ t.flag .d = false ∧
    Keeps [.sp, .pc, .pbr] [.i, .d] s t

/-! ### Shifts and counters (R176 to R178), as arithmetic -/

/-- The shifts and rotates. -/
inductive ShiftKind where
  | asl
  | lsr
  | rol
  | ror
deriving DecidableEq, Repr

/-- The result of a shift or rotate of `v` by one bit in `bits` bits, with the carry-in `cin` (R176, R177). -/
def shifted (bits v cin : Nat) : ShiftKind → Nat
  | .asl => 2 * v % 2 ^ bits
  | .lsr => v / 2
  | .rol => (2 * v + cin) % 2 ^ bits
  | .ror => v / 2 + cin * 2 ^ (bits - 1)

/-- The bit that a shift or rotate of `v` shifts out (R176, R177). -/
def shiftedOut (bits v : Nat) : ShiftKind → Bool
  | .asl => decide (2 ^ (bits - 1) ≤ v)
  | .lsr => decide (v % 2 = 1)
  | .rol => decide (2 ^ (bits - 1) ≤ v)
  | .ror => decide (v % 2 = 1)

/-- `v` one up or one down in `bits` bits (R178). -/
def counted (bits v : Nat) (up : Bool) : Nat := if up then (v + 1) % 2 ^ bits else (v + 2 ^ bits - 1) % 2 ^ bits

/-! ### Decimal numbers (R182, R183) -/

/-- Nibble `i` of a word. -/
def nibble (v : Word) (i : Nat) : Nat := v.toNat / 16 ^ i % 16

/-- The word is a number of `n` decimal digits, one a nibble. -/
def isBcd (n : Nat) (v : Word) : Prop := v.toNat < 16 ^ n ∧ ∀ i < n, nibble v i ≤ 9

/-- The number that the lowest `n` nibbles stand for, as decimal digits. -/
def bcdValue (n : Nat) (v : Word) : Nat := ((List.range n).map fun i => nibble v i * 10 ^ i).sum

/-- The carry into digit `i` of a decimal addition: a digit sum above 9 carries, for every operand (R182). -/
def addCarry (a b : Word) (c : Bool) : Nat → Nat
  | 0 => c.toNat
  | i + 1 => if 9 < nibble a i + nibble b i + addCarry a b c i then 1 else 0

/-- Digit `i` of a decimal addition: a digit sum above 9 gains 6 (R182). -/
def addDigit (a b : Word) (c : Bool) (i : Nat) : Nat :=
  let t := nibble a i + nibble b i + addCarry a b c i
  if 9 < t then (t + 6) % 16 else t

/-- The borrow out of the digits below `i` of a decimal subtraction (R183). -/
def subBorrow (a b : Word) (c : Bool) : Nat → Nat
  | 0 => 1 - c.toNat
  | i + 1 => if nibble a i < nibble b i + subBorrow a b c i then 1 else 0

/-- Digit `i` of a decimal subtraction: a digit that borrows gains 10, in four bits (R183). -/
def subDigit (a b : Word) (c : Bool) (i : Nat) : Nat :=
  let u := nibble b i + subBorrow a b c i
  if nibble a i < u then (nibble a i + 26 - u) % 16 else nibble a i - u

/-- The number whose lowest `n` hexadecimal digits `digit` gives. -/
def ofDigits (n : Nat) (digit : Nat → Nat) : Nat := ((List.range n).map fun i => digit i * 16 ^ i).sum

/-- The signed reading of a value at a width (R171). -/
def signed (w : Width) (v : Word) : Int := if 2 ^ (w.bits - 1) ≤ v.toNat then (v.toNat : Int) - 2 ^ w.bits else v.toNat

/-! ### The forms of each instruction with a memory operand, as opcode_table.json lists them -/

/-- The forms of LDA (R200), by operand. -/
def ldaForm : Operand → Option Instr
  | .imm k => some (.ldaImmM k)
  | .mem (.dp d) => some (.ldaDp d)
  | .mem (.dpx d) => some (.ldaDpx d)
  | .mem (.dpy _) => none
  | .mem (.dpind d) => some (.ldaDpind d)
  | .mem (.dpxind d) => some (.ldaDpxind d)
  | .mem (.dpindy d) => some (.ldaDpindy d)
  | .mem (.dplong d) => some (.ldaDplong d)
  | .mem (.dplongy d) => some (.ldaDplongy d)
  | .mem (.sr d) => some (.ldaSr d)
  | .mem (.sriy d) => some (.ldaSriy d)
  | .mem (.abs a) => some (.ldaAbs a)
  | .mem (.absx a) => some (.ldaAbsx a)
  | .mem (.absy a) => some (.ldaAbsy a)
  | .mem (.long al) => some (.ldaLong al)
  | .mem (.longx al) => some (.ldaLongx al)

/-- The forms of LDX (R201), by operand. -/
def ldxForm : Operand → Option Instr
  | .imm k => some (.ldxImmX k)
  | .mem (.dp d) => some (.ldxDp d)
  | .mem (.dpx _) => none
  | .mem (.dpy d) => some (.ldxDpy d)
  | .mem (.dpind _) => none
  | .mem (.dpxind _) => none
  | .mem (.dpindy _) => none
  | .mem (.dplong _) => none
  | .mem (.dplongy _) => none
  | .mem (.sr _) => none
  | .mem (.sriy _) => none
  | .mem (.abs a) => some (.ldxAbs a)
  | .mem (.absx _) => none
  | .mem (.absy a) => some (.ldxAbsy a)
  | .mem (.long _) => none
  | .mem (.longx _) => none

/-- The forms of LDY (R202), by operand. -/
def ldyForm : Operand → Option Instr
  | .imm k => some (.ldyImmX k)
  | .mem (.dp d) => some (.ldyDp d)
  | .mem (.dpx d) => some (.ldyDpx d)
  | .mem (.dpy _) => none
  | .mem (.dpind _) => none
  | .mem (.dpxind _) => none
  | .mem (.dpindy _) => none
  | .mem (.dplong _) => none
  | .mem (.dplongy _) => none
  | .mem (.sr _) => none
  | .mem (.sriy _) => none
  | .mem (.abs a) => some (.ldyAbs a)
  | .mem (.absx a) => some (.ldyAbsx a)
  | .mem (.absy _) => none
  | .mem (.long _) => none
  | .mem (.longx _) => none

/-- The forms of ORA (R240), by operand. -/
def oraForm : Operand → Option Instr
  | .imm k => some (.oraImmM k)
  | .mem (.dp d) => some (.oraDp d)
  | .mem (.dpx d) => some (.oraDpx d)
  | .mem (.dpy _) => none
  | .mem (.dpind d) => some (.oraDpind d)
  | .mem (.dpxind d) => some (.oraDpxind d)
  | .mem (.dpindy d) => some (.oraDpindy d)
  | .mem (.dplong d) => some (.oraDplong d)
  | .mem (.dplongy d) => some (.oraDplongy d)
  | .mem (.sr d) => some (.oraSr d)
  | .mem (.sriy d) => some (.oraSriy d)
  | .mem (.abs a) => some (.oraAbs a)
  | .mem (.absx a) => some (.oraAbsx a)
  | .mem (.absy a) => some (.oraAbsy a)
  | .mem (.long al) => some (.oraLong al)
  | .mem (.longx al) => some (.oraLongx al)

/-- The forms of AND (R241), by operand. -/
def andAForm : Operand → Option Instr
  | .imm k => some (.andImmM k)
  | .mem (.dp d) => some (.andDp d)
  | .mem (.dpx d) => some (.andDpx d)
  | .mem (.dpy _) => none
  | .mem (.dpind d) => some (.andDpind d)
  | .mem (.dpxind d) => some (.andDpxind d)
  | .mem (.dpindy d) => some (.andDpindy d)
  | .mem (.dplong d) => some (.andDplong d)
  | .mem (.dplongy d) => some (.andDplongy d)
  | .mem (.sr d) => some (.andSr d)
  | .mem (.sriy d) => some (.andSriy d)
  | .mem (.abs a) => some (.andAbs a)
  | .mem (.absx a) => some (.andAbsx a)
  | .mem (.absy a) => some (.andAbsy a)
  | .mem (.long al) => some (.andLong al)
  | .mem (.longx al) => some (.andLongx al)

/-- The forms of EOR (R242), by operand. -/
def eorForm : Operand → Option Instr
  | .imm k => some (.eorImmM k)
  | .mem (.dp d) => some (.eorDp d)
  | .mem (.dpx d) => some (.eorDpx d)
  | .mem (.dpy _) => none
  | .mem (.dpind d) => some (.eorDpind d)
  | .mem (.dpxind d) => some (.eorDpxind d)
  | .mem (.dpindy d) => some (.eorDpindy d)
  | .mem (.dplong d) => some (.eorDplong d)
  | .mem (.dplongy d) => some (.eorDplongy d)
  | .mem (.sr d) => some (.eorSr d)
  | .mem (.sriy d) => some (.eorSriy d)
  | .mem (.abs a) => some (.eorAbs a)
  | .mem (.absx a) => some (.eorAbsx a)
  | .mem (.absy a) => some (.eorAbsy a)
  | .mem (.long al) => some (.eorLong al)
  | .mem (.longx al) => some (.eorLongx al)

/-- The forms of ADC (R243), by operand. -/
def adcForm : Operand → Option Instr
  | .imm k => some (.adcImmM k)
  | .mem (.dp d) => some (.adcDp d)
  | .mem (.dpx d) => some (.adcDpx d)
  | .mem (.dpy _) => none
  | .mem (.dpind d) => some (.adcDpind d)
  | .mem (.dpxind d) => some (.adcDpxind d)
  | .mem (.dpindy d) => some (.adcDpindy d)
  | .mem (.dplong d) => some (.adcDplong d)
  | .mem (.dplongy d) => some (.adcDplongy d)
  | .mem (.sr d) => some (.adcSr d)
  | .mem (.sriy d) => some (.adcSriy d)
  | .mem (.abs a) => some (.adcAbs a)
  | .mem (.absx a) => some (.adcAbsx a)
  | .mem (.absy a) => some (.adcAbsy a)
  | .mem (.long al) => some (.adcLong al)
  | .mem (.longx al) => some (.adcLongx al)

/-- The forms of SBC (R244), by operand. -/
def sbcForm : Operand → Option Instr
  | .imm k => some (.sbcImmM k)
  | .mem (.dp d) => some (.sbcDp d)
  | .mem (.dpx d) => some (.sbcDpx d)
  | .mem (.dpy _) => none
  | .mem (.dpind d) => some (.sbcDpind d)
  | .mem (.dpxind d) => some (.sbcDpxind d)
  | .mem (.dpindy d) => some (.sbcDpindy d)
  | .mem (.dplong d) => some (.sbcDplong d)
  | .mem (.dplongy d) => some (.sbcDplongy d)
  | .mem (.sr d) => some (.sbcSr d)
  | .mem (.sriy d) => some (.sbcSriy d)
  | .mem (.abs a) => some (.sbcAbs a)
  | .mem (.absx a) => some (.sbcAbsx a)
  | .mem (.absy a) => some (.sbcAbsy a)
  | .mem (.long al) => some (.sbcLong al)
  | .mem (.longx al) => some (.sbcLongx al)

/-- The forms of CMP (R245), by operand. -/
def cmpForm : Operand → Option Instr
  | .imm k => some (.cmpImmM k)
  | .mem (.dp d) => some (.cmpDp d)
  | .mem (.dpx d) => some (.cmpDpx d)
  | .mem (.dpy _) => none
  | .mem (.dpind d) => some (.cmpDpind d)
  | .mem (.dpxind d) => some (.cmpDpxind d)
  | .mem (.dpindy d) => some (.cmpDpindy d)
  | .mem (.dplong d) => some (.cmpDplong d)
  | .mem (.dplongy d) => some (.cmpDplongy d)
  | .mem (.sr d) => some (.cmpSr d)
  | .mem (.sriy d) => some (.cmpSriy d)
  | .mem (.abs a) => some (.cmpAbs a)
  | .mem (.absx a) => some (.cmpAbsx a)
  | .mem (.absy a) => some (.cmpAbsy a)
  | .mem (.long al) => some (.cmpLong al)
  | .mem (.longx al) => some (.cmpLongx al)

/-- The forms of CPX (R246), by operand. -/
def cpxForm : Operand → Option Instr
  | .imm k => some (.cpxImmX k)
  | .mem (.dp d) => some (.cpxDp d)
  | .mem (.dpx _) => none
  | .mem (.dpy _) => none
  | .mem (.dpind _) => none
  | .mem (.dpxind _) => none
  | .mem (.dpindy _) => none
  | .mem (.dplong _) => none
  | .mem (.dplongy _) => none
  | .mem (.sr _) => none
  | .mem (.sriy _) => none
  | .mem (.abs a) => some (.cpxAbs a)
  | .mem (.absx _) => none
  | .mem (.absy _) => none
  | .mem (.long _) => none
  | .mem (.longx _) => none

/-- The forms of CPY (R247), by operand. -/
def cpyForm : Operand → Option Instr
  | .imm k => some (.cpyImmX k)
  | .mem (.dp d) => some (.cpyDp d)
  | .mem (.dpx _) => none
  | .mem (.dpy _) => none
  | .mem (.dpind _) => none
  | .mem (.dpxind _) => none
  | .mem (.dpindy _) => none
  | .mem (.dplong _) => none
  | .mem (.dplongy _) => none
  | .mem (.sr _) => none
  | .mem (.sriy _) => none
  | .mem (.abs a) => some (.cpyAbs a)
  | .mem (.absx _) => none
  | .mem (.absy _) => none
  | .mem (.long _) => none
  | .mem (.longx _) => none

/-- The memory forms of STA (R203), by mode. -/
def staForm : DataMode → Option Instr
  | .dp d => some (.staDp d)
  | .dpx d => some (.staDpx d)
  | .dpy _ => none
  | .dpind d => some (.staDpind d)
  | .dpxind d => some (.staDpxind d)
  | .dpindy d => some (.staDpindy d)
  | .dplong d => some (.staDplong d)
  | .dplongy d => some (.staDplongy d)
  | .sr d => some (.staSr d)
  | .sriy d => some (.staSriy d)
  | .abs a => some (.staAbs a)
  | .absx a => some (.staAbsx a)
  | .absy a => some (.staAbsy a)
  | .long al => some (.staLong al)
  | .longx al => some (.staLongx al)

/-- The memory forms of STX (R204), by mode. -/
def stxForm : DataMode → Option Instr
  | .dp d => some (.stxDp d)
  | .dpx _ => none
  | .dpy d => some (.stxDpy d)
  | .dpind _ => none
  | .dpxind _ => none
  | .dpindy _ => none
  | .dplong _ => none
  | .dplongy _ => none
  | .sr _ => none
  | .sriy _ => none
  | .abs a => some (.stxAbs a)
  | .absx _ => none
  | .absy _ => none
  | .long _ => none
  | .longx _ => none

/-- The memory forms of STY (R205), by mode. -/
def styForm : DataMode → Option Instr
  | .dp d => some (.styDp d)
  | .dpx d => some (.styDpx d)
  | .dpy _ => none
  | .dpind _ => none
  | .dpxind _ => none
  | .dpindy _ => none
  | .dplong _ => none
  | .dplongy _ => none
  | .sr _ => none
  | .sriy _ => none
  | .abs a => some (.styAbs a)
  | .absx _ => none
  | .absy _ => none
  | .long _ => none
  | .longx _ => none

/-- The memory forms of STZ (R206), by mode. -/
def stzForm : DataMode → Option Instr
  | .dp d => some (.stzDp d)
  | .dpx d => some (.stzDpx d)
  | .dpy _ => none
  | .dpind _ => none
  | .dpxind _ => none
  | .dpindy _ => none
  | .dplong _ => none
  | .dplongy _ => none
  | .sr _ => none
  | .sriy _ => none
  | .abs a => some (.stzAbs a)
  | .absx a => some (.stzAbsx a)
  | .absy _ => none
  | .long _ => none
  | .longx _ => none

/-- The memory forms of BIT (R248), by mode. -/
def bitForm : DataMode → Option Instr
  | .dp d => some (.bitDp d)
  | .dpx d => some (.bitDpx d)
  | .dpy _ => none
  | .dpind _ => none
  | .dpxind _ => none
  | .dpindy _ => none
  | .dplong _ => none
  | .dplongy _ => none
  | .sr _ => none
  | .sriy _ => none
  | .abs a => some (.bitAbs a)
  | .absx a => some (.bitAbsx a)
  | .absy _ => none
  | .long _ => none
  | .longx _ => none

/-- The memory forms of ASL (R261), by mode. -/
def aslForm : DataMode → Option Instr
  | .dp d => some (.aslDp d)
  | .dpx d => some (.aslDpx d)
  | .dpy _ => none
  | .dpind _ => none
  | .dpxind _ => none
  | .dpindy _ => none
  | .dplong _ => none
  | .dplongy _ => none
  | .sr _ => none
  | .sriy _ => none
  | .abs a => some (.aslAbs a)
  | .absx a => some (.aslAbsx a)
  | .absy _ => none
  | .long _ => none
  | .longx _ => none

/-- The memory forms of LSR (R262), by mode. -/
def lsrForm : DataMode → Option Instr
  | .dp d => some (.lsrDp d)
  | .dpx d => some (.lsrDpx d)
  | .dpy _ => none
  | .dpind _ => none
  | .dpxind _ => none
  | .dpindy _ => none
  | .dplong _ => none
  | .dplongy _ => none
  | .sr _ => none
  | .sriy _ => none
  | .abs a => some (.lsrAbs a)
  | .absx a => some (.lsrAbsx a)
  | .absy _ => none
  | .long _ => none
  | .longx _ => none

/-- The memory forms of ROL (R263), by mode. -/
def rolForm : DataMode → Option Instr
  | .dp d => some (.rolDp d)
  | .dpx d => some (.rolDpx d)
  | .dpy _ => none
  | .dpind _ => none
  | .dpxind _ => none
  | .dpindy _ => none
  | .dplong _ => none
  | .dplongy _ => none
  | .sr _ => none
  | .sriy _ => none
  | .abs a => some (.rolAbs a)
  | .absx a => some (.rolAbsx a)
  | .absy _ => none
  | .long _ => none
  | .longx _ => none

/-- The memory forms of ROR (R264), by mode. -/
def rorForm : DataMode → Option Instr
  | .dp d => some (.rorDp d)
  | .dpx d => some (.rorDpx d)
  | .dpy _ => none
  | .dpind _ => none
  | .dpxind _ => none
  | .dpindy _ => none
  | .dplong _ => none
  | .dplongy _ => none
  | .sr _ => none
  | .sriy _ => none
  | .abs a => some (.rorAbs a)
  | .absx a => some (.rorAbsx a)
  | .absy _ => none
  | .long _ => none
  | .longx _ => none

/-- The memory forms of INC (R265), by mode. -/
def incForm : DataMode → Option Instr
  | .dp d => some (.incDp d)
  | .dpx d => some (.incDpx d)
  | .dpy _ => none
  | .dpind _ => none
  | .dpxind _ => none
  | .dpindy _ => none
  | .dplong _ => none
  | .dplongy _ => none
  | .sr _ => none
  | .sriy _ => none
  | .abs a => some (.incAbs a)
  | .absx a => some (.incAbsx a)
  | .absy _ => none
  | .long _ => none
  | .longx _ => none

/-- The memory forms of DEC (R266), by mode. -/
def decForm : DataMode → Option Instr
  | .dp d => some (.decDp d)
  | .dpx d => some (.decDpx d)
  | .dpy _ => none
  | .dpind _ => none
  | .dpxind _ => none
  | .dpindy _ => none
  | .dplong _ => none
  | .dplongy _ => none
  | .sr _ => none
  | .sriy _ => none
  | .abs a => some (.decAbs a)
  | .absx a => some (.decAbsx a)
  | .absy _ => none
  | .long _ => none
  | .longx _ => none

/-- The memory forms of TSB (R267), by mode. -/
def tsbForm : DataMode → Option Instr
  | .dp d => some (.tsbDp d)
  | .dpx _ => none
  | .dpy _ => none
  | .dpind _ => none
  | .dpxind _ => none
  | .dpindy _ => none
  | .dplong _ => none
  | .dplongy _ => none
  | .sr _ => none
  | .sriy _ => none
  | .abs a => some (.tsbAbs a)
  | .absx _ => none
  | .absy _ => none
  | .long _ => none
  | .longx _ => none

/-- The memory forms of TRB (R268), by mode. -/
def trbForm : DataMode → Option Instr
  | .dp d => some (.trbDp d)
  | .dpx _ => none
  | .dpy _ => none
  | .dpind _ => none
  | .dpxind _ => none
  | .dpindy _ => none
  | .dplong _ => none
  | .dplongy _ => none
  | .sr _ => none
  | .sriy _ => none
  | .abs a => some (.trbAbs a)
  | .absx _ => none
  | .absy _ => none
  | .long _ => none
  | .longx _ => none

/-- The memory forms of the shifts and rotates (R261 to R264). -/
def shiftForm : ShiftKind → DataMode → Option Instr
  | .asl, m => aslForm m
  | .lsr, m => lsrForm m
  | .rol, m => rolForm m
  | .ror, m => rorForm m

/-- The accumulator forms of the shifts and rotates (R261 to R264). -/
def shiftAccForm : ShiftKind → Instr
  | .asl => .aslAcc
  | .lsr => .lsrAcc
  | .rol => .rolAcc
  | .ror => .rorAcc

/-- The condition of a branch with an 8-bit displacement, and its displacement (R331 to R339). -/
def branchForm (s : State) : Instr → Option (Bool × Byte)
  | .bplRel8 r => some (!s.p.getLsbD 7, r)
  | .bmiRel8 r => some (s.p.getLsbD 7, r)
  | .bvcRel8 r => some (!s.p.getLsbD 6, r)
  | .bvsRel8 r => some (s.p.getLsbD 6, r)
  | .braRel8 r => some (true, r)
  | .bccRel8 r => some (!s.p.getLsbD 0, r)
  | .bcsRel8 r => some (s.p.getLsbD 0, r)
  | .bneRel8 r => some (!s.p.getLsbD 1, r)
  | .beqRel8 r => some (s.p.getLsbD 1, r)
  | _ => none

/-! ### The cycle grid (R464) -/

/-- The cells of R464, rows 0x to 7x: the base cost and the modifiers. -/
def cycleGridLow : List (List (Nat × List CycleMod)) := [
    [(7, [.e]), (6, [.m1, .dl]), (7, [.e]), (4, [.m1]), (5, [.m2, .dl]), (3, [.m1, .dl]), (5, [.m2, .dl]),
   (6, [.m1, .dl]), (3, []), (2, [.m1]), (2, []), (4, []), (6, [.m2]), (4, [.m1]), (6, [.m2]), (5, [.m1])],
    [(2, [.br]), (5, [.m1, .dl, .px]), (5, [.m1, .dl]), (7, [.m1]), (5, [.m2, .dl]), (4, [.m1, .dl]),
   (6, [.m2, .dl]), (6, [.m1, .dl]), (2, []), (4, [.m1, .px]), (2, []), (2, []), (6, [.m2]), (4, [.m1, .px]),
   (7, [.m2]), (5, [.m1])],
    [(6, []), (6, [.m1, .dl]), (8, []), (4, [.m1]), (3, [.m1, .dl]), (3, [.m1, .dl]), (5, [.m2, .dl]),
   (6, [.m1, .dl]), (4, []), (2, [.m1]), (2, []), (5, []), (4, [.m1]), (4, [.m1]), (6, [.m2]), (5, [.m1])],
    [(2, [.br]), (5, [.m1, .dl, .px]), (5, [.m1, .dl]), (7, [.m1]), (4, [.m1, .dl]), (4, [.m1, .dl]),
   (6, [.m2, .dl]), (6, [.m1, .dl]), (2, []), (4, [.m1, .px]), (2, []), (2, []), (4, [.m1, .px]),
   (4, [.m1, .px]), (7, [.m2]), (5, [.m1])],
    [(6, [.e]), (6, [.m1, .dl]), (2, []), (4, [.m1]), (7, []), (3, [.m1, .dl]), (5, [.m2, .dl]),
   (6, [.m1, .dl]), (3, [.m1]), (2, [.m1]), (2, []), (3, []), (3, []), (4, [.m1]), (6, [.m2]), (5, [.m1])],
    [(2, [.br]), (5, [.m1, .dl, .px]), (5, [.m1, .dl]), (7, [.m1]), (7, []), (4, [.m1, .dl]), (6, [.m2, .dl]),
   (6, [.m1, .dl]), (2, []), (4, [.m1, .px]), (3, [.x1]), (2, []), (4, []), (4, [.m1, .px]), (7, [.m2]),
   (5, [.m1])],
    [(6, []), (6, [.m1, .dl]), (6, []), (4, [.m1]), (3, [.m1, .dl]), (3, [.m1, .dl]), (5, [.m2, .dl]),
   (6, [.m1, .dl]), (4, [.m1]), (2, [.m1]), (2, []), (6, []), (5, []), (4, [.m1]), (6, [.m2]), (5, [.m1])],
    [(2, [.br]), (5, [.m1, .dl, .px]), (5, [.m1, .dl]), (7, [.m1]), (4, [.m1, .dl]), (4, [.m1, .dl]),
   (6, [.m2, .dl]), (6, [.m1, .dl]), (2, []), (4, [.m1, .px]), (4, [.x1]), (2, []), (6, []), (4, [.m1, .px]),
   (7, [.m2]), (5, [.m1])]]

/-- The cells of R464, rows 8x to Fx. -/
def cycleGridHigh : List (List (Nat × List CycleMod)) := [
    [(3, [.bra]), (6, [.m1, .dl]), (4, []), (4, [.m1]), (3, [.x1, .dl]), (3, [.m1, .dl]), (3, [.x1, .dl]),
   (6, [.m1, .dl]), (2, []), (2, [.m1]), (2, []), (3, []), (4, [.x1]), (4, [.m1]), (4, [.x1]), (5, [.m1])],
    [(2, [.br]), (6, [.m1, .dl]), (5, [.m1, .dl]), (7, [.m1]), (4, [.x1, .dl]), (4, [.m1, .dl]),
   (4, [.x1, .dl]), (6, [.m1, .dl]), (2, []), (5, [.m1]), (2, []), (2, []), (4, [.m1]), (5, [.m1]), (5, [.m1]),
   (5, [.m1])],
    [(2, [.x1]), (6, [.m1, .dl]), (2, [.x1]), (4, [.m1]), (3, [.x1, .dl]), (3, [.m1, .dl]), (3, [.x1, .dl]),
   (6, [.m1, .dl]), (2, []), (2, [.m1]), (2, []), (4, []), (4, [.x1]), (4, [.m1]), (4, [.x1]), (5, [.m1])],
    [(2, [.br]), (5, [.m1, .dl, .px]), (5, [.m1, .dl]), (7, [.m1]), (4, [.x1, .dl]), (4, [.m1, .dl]),
   (4, [.x1, .dl]), (6, [.m1, .dl]), (2, []), (4, [.m1, .px]), (2, []), (2, []), (4, [.x1, .px]),
   (4, [.m1, .px]), (4, [.x1, .px]), (5, [.m1])],
    [(2, [.x1]), (6, [.m1, .dl]), (3, []), (4, [.m1]), (3, [.x1, .dl]), (3, [.m1, .dl]), (5, [.m2, .dl]),
   (6, [.m1, .dl]), (2, []), (2, [.m1]), (2, []), (3, []), (4, [.x1]), (4, [.m1]), (6, [.m2]), (5, [.m1])],
    [(2, [.br]), (5, [.m1, .dl, .px]), (5, [.m1, .dl]), (7, [.m1]), (6, [.dl]), (4, [.m1, .dl]),
   (6, [.m2, .dl]), (6, [.m1, .dl]), (2, []), (4, [.m1, .px]), (3, [.x1]), (3, []), (6, []), (4, [.m1, .px]),
   (7, [.m2]), (5, [.m1])],
    [(2, [.x1]), (6, [.m1, .dl]), (3, []), (4, [.m1]), (3, [.x1, .dl]), (3, [.m1, .dl]), (5, [.m2, .dl]),
   (6, [.m1, .dl]), (2, []), (2, [.m1]), (2, []), (3, []), (4, [.x1]), (4, [.m1]), (6, [.m2]), (5, [.m1])],
    [(2, [.br]), (5, [.m1, .dl, .px]), (5, [.m1, .dl]), (7, [.m1]), (5, []), (4, [.m1, .dl]), (6, [.m2, .dl]),
   (6, [.m1, .dl]), (2, []), (4, [.m1, .px]), (4, [.x1]), (2, []), (8, []), (4, [.m1, .px]), (7, [.m2]),
   (5, [.m1])]]

/-- The cell of an opcode (R464). -/
def cycleCell (op : Byte) : Nat × List CycleMod :=
  ((cycleGridLow ++ cycleGridHigh).getD (op.toNat / 16) []).getD (op.toNat % 16) (0, [])

/-- The 16-bit address before indexing and the index of the modes whose reads pay for a page cross (R154). -/
def indexedBase (s : State) : Instr → Option (Nat × Nat)
  | .oraAbsx a | .bitAbsx a | .andAbsx a | .eorAbsx a | .adcAbsx a | .ldyAbsx a | .ldaAbsx a | .cmpAbsx a |
    .sbcAbsx a =>
    some (a.toNat, s.readX.toNat)
  | .oraAbsy a | .andAbsy a | .eorAbsy a | .adcAbsy a | .ldaAbsy a | .ldxAbsy a | .cmpAbsy a | .sbcAbsy a =>
    some (a.toNat, s.readY.toNat)
  | .oraDpindy d | .andDpindy d | .eorDpindy d | .adcDpindy d | .ldaDpindy d | .cmpDpindy d | .sbcDpindy d =>
    some (((s.dpPtr (s.dpAddr (zext d))).1).toNat, s.readY.toNat)
  | _ => none

/-- `crossed` (R154). -/
def crossesPage (s : State) (i : Instr) : Bool :=
  match indexedBase s i with
  | some (base, index) => (base + index) / 2 ^ 8 != base / 2 ^ 8
  | none => false

/-- Whether a branch is taken, and whether its target lies in another page than PCnext (R462). -/
def branchOutcome (s : State) (i : Instr) : Bool × Bool :=
  match branchForm s i with
  | some (taken, r) => (taken, hi (s.pc + sext r) != hi s.pc)
  | none => (false, false)

/-- What a modifier adds to the cost of `i` in `s` (R461, R462). -/
def modifierCost (s : State) (i : Instr) : CycleMod → Nat
  | .m1 => if s.p.getLsbD 5 then 0 else 1
  | .m2 => if s.p.getLsbD 5 then 0 else 2
  | .x1 => if s.p.getLsbD 4 then 0 else 1
  | .dl => if s.d.toNat % 2 ^ 8 ≠ 0 then 1 else 0
  | .px => if s.p.getLsbD 4 = false ∨ crossesPage s i then 1 else 0
  | .e => if s.e then 0 else 1
  | .br =>
    let o := branchOutcome s i
    if o.1 then (if s.e ∧ o.2 then 2 else 1) else 0
  | .bra => if s.e ∧ (branchOutcome s i).2 then 1 else 0

/-- The cost of one instruction step (R460, R464). -/
def gridCost (s : State) (i : Instr) : Nat :=
  (cycleCell i.opcode).1 + ((cycleCell i.opcode).2.map (modifierCost s i)).sum

end Sys2Proof.Safety
end

