-- ==== Sys2Proof/Certificates/Slice0/Obligations.lean ====
section
/-! DEFINITION. The statements about the machine, for the provers. Each docstring names the rules of spec/ that
the statement formalises, and the decisions that the spec marks as its own. The recorded calls (`trace`) and
diagnostics (`diag`) are the model's own fields (log 4).

Some of the definitions that statements are made of follow rules that the spec marks as its own decisions, and carry
those decisions into every statement that names them, beside the ones its docstring lists: `answers` and `readEvents`
(R76, D35), `littleEndian` (R73, D3), `byteAddrs` (R86, D7), `pushAddrs`, `pullAddrs`, `Pushes` and `Pulls` (R300,
R301, D26), `WritesIndex` and `StatusSet` (R42, R43, D9). What `State.ea` and `State.operandRead` answer is the
subject of the statements on addressing. That an instruction or a step which calls the collaborator ends in a next
state rests everywhere on log 8 (DESIGN CHOICE, unsafe: every call returns; R85, D34). -/

open Sys2Proof Sys2Proof.Machine Sys2Proof.Safety

/-! ### Encoding -/

/-- Decoding the bytes of a well-formed instruction gives it back, and the bytes after it (R100 to R107, R109). -/
def Obligations.DecodeOfEncode : Prop :=
  ∀ (w : Widths) (i : Instr) (rest : List Byte), i.wf w = true → decode w (encode i ++ rest) = .ok (i, rest)

/-- What decodes is exactly the encoding of a well-formed instruction: no bit of it is dropped, and no other bytes
decode to the same instruction (R100 to R107, R109). -/
def Obligations.EncodeOfDecode : Prop :=
  ∀ (w : Widths) (bytes : List Byte) (i : Instr) (rest : List Byte),
    decode w bytes = .ok (i, rest) → i.wf w = true ∧ bytes = encode i ++ rest

/-- Each of the 256 byte values selects exactly one instruction, whose opcode byte it is, of 1 to 4 bytes (R100,
R108, R351). -/
def Obligations.DecodingIsTotal : Prop :=
  ∀ (w : Widths) (op b1 b2 b3 : Byte), ∃ (i : Instr) (rest : List Byte),
    decode w [op, b1, b2, b3] = .ok (i, rest) ∧ i.opcode = op ∧ 1 ≤ i.length ∧ i.length ≤ 4 ∧
      rest.length + i.length = 4

/-- A few words written out from R101 and R109 decode to the instructions they stand for. -/
def Obligations.SampleWordsDecode : Prop :=
  decode ⟨.w8, .w8⟩ [0xA9, 0x42] = .ok (.ldaImmM (.w8 0x42), []) ∧
  decode ⟨.w16, .w16⟩ [0xA9, 0x34, 0x12] = .ok (.ldaImmM (.w16 0x1234), []) ∧
  decode ⟨.w8, .w16⟩ [0xA2, 0x00, 0x80] = .ok (.ldxImmX (.w16 0x8000), []) ∧
  decode ⟨.w8, .w8⟩ [0x54, 0x7E, 0x01] = .ok (.mvnBlk 0x7E 0x01, []) ∧
  decode ⟨.w8, .w8⟩ [0x5C, 0x56, 0x34, 0x12] = .ok (.jmlLong 0x123456, []) ∧
  decode ⟨.w8, .w8⟩ [0x62, 0xFD, 0xFF] = .ok (.perRel16 0xFFFD, []) ∧
  decode ⟨.w8, .w8⟩ [0xB3, 0x03] = .ok (.ldaSriy 0x03, []) ∧
  decode ⟨.w8, .w8⟩ [0x7C, 0x00, 0x90] = .ok (.jmpAbsxind 0x9000, [])

/-! ### The step -/

/-- While the core runs and its opcode is implemented, a step is the meaning of the instruction that the
collaborator's answers at PBR:PC decode to at the live widths, run with PC past the instruction (wrapping inside
the bank) and with exactly the instruction's bytes read, in address order (R36, R75, R102, R130, R350). Decisions
of the spec (92_eei_decisions.md) it rests on: D5, D8, D14, D32. -/
def Obligations.StepRunsDecodedInstruction : Prop :=
  ∀ (s : State) (i : Instr) (rest : List Byte),
    let addrs := (List.range 4).map fun k => addrOf s.pbr (s.pc + BitVec.ofNat 16 k)
    s.run = .running → s.unknownOp (s.answer (addrOf s.pbr s.pc)) = false →
    decode s.widths (answers s addrs) = .ok (i, rest) →
    step s = exec i { s with
      pc := s.pc + BitVec.ofNat 16 i.length
      trace := s.trace ++ readEvents s (addrs.take i.length) }

/-- A byte of `UNIMPLEMENTED_OPCODES` is read, skipped, reported if `DIAG_ENABLED`, and charged; nothing else
changes (R45, R355, R356). Decisions of the spec (92_eei_decisions.md) it rests on: D12, D13, D31. -/
def Obligations.UnknownOpcodeIsSkipped : Prop :=
  ∀ s : State,
    let a := addrOf s.pbr s.pc
    s.run = .running → s.answer a ∈ s.params.unimplemented →
    step s = .next { s with
      pc := s.pc + 1
      trace := s.trace ++ [.read a (s.answer a)]
      diag := s.diag ++ (if s.params.diagEnabled then [⟨s.pbr, s.pc, s.answer a⟩] else [])
      cycles := s.cycles + s.params.unknownOpcodeCycles.setWidth 64 }

/-- A step in Waiting or Stopped changes the cycle counter only (R45, R350, R367). Decisions of the spec
(92_eei_decisions.md) it rests on: D14, D31, D32. -/
def Obligations.IdleStepOnlyCharges : Prop :=
  ∀ s : State, s.run ≠ .running →
    step s = .next { s with cycles := s.cycles + s.params.idleStepCycles.setWidth 64 }

/-- Every instruction, in every state, and every step ends in a next state: nothing faults, traps or is refused
(R14, R350, R400). It rests on the model's choice that every call of the collaborator returns (R85; log 8, DESIGN
CHOICE, unsafe): a core whose collaborator does not return has no next state. Decisions of the spec
(92_eei_decisions.md) it rests on: D14, D32, D34. -/
def Obligations.NothingFaults : Prop :=
  (∀ (i : Instr) (s : State), ∃ t, exec i s = .next t) ∧ ∀ s : State, ∃ t, step s = .next t

/-! ### Invariants of the whole machine -/

/-- The state after reset is what `reset` makes of a new core with the default parameters and a memory that lists
nothing (R451, R452; that such a memory reads as $00 is the model's choice, log 2), and it meets the invariants
(R39, R42, R454). Decisions of the spec (92_eei_decisions.md) it rests on: D9, D10, D11. -/
def Obligations.ResetStateMeetsInvariants : Prop :=
  hostReset (State.new [] Config.defaultParams) = State.reset ∧ Inv State.reset

/-- Every step keeps the emulation-mode invariant of R39, the policy Zero of R42 and the canonical form of memory.
Decisions of the spec (92_eei_decisions.md) it rests on: D9. -/
def Obligations.StepKeepsInvariants : Prop :=
  ∀ s t : State, Inv s → step s = .next t → Inv t

/-- Every sequence of host calls (steps, interrupts, resets, setters) keeps them (R39, R42, R61, R62). Decisions
of the spec (92_eei_decisions.md) it rests on: D9, D27. -/
def Obligations.HostCallsKeepInvariants : Prop :=
  ∀ (calls : List HostCall) (s t : State), Inv s → hostRun calls s = .next t → Inv t

/-- The core reaches memory only through the collaborator's calls: each step only adds calls to the record, and
memory afterwards is memory before with exactly the recorded writes applied in order (R70, R75, R80). Decisions of
the spec (92_eei_decisions.md) it rests on: D8, D24. -/
def Obligations.MemoryFollowsBusWrites : Prop :=
  ∀ s t : State, step s = .next t →
    ∃ calls, t.trace = s.trace ++ calls ∧ t.mem = replay s.mem calls

/-- Which instructions write PBR, DBR, D, E and the run state, over all instructions, and that none changes the
parameters or reports a diagnostic (R34, R35, R38, R44, R355). Decisions of the spec (92_eei_decisions.md) it
rests on: D12, D14. -/
def Obligations.ControlRegisterWriters : Prop :=
  ∀ (i : Instr) (s t : State), exec i s = .next t →
    (t.pbr ≠ s.pbr → (∃ al, i = .jmlLong al) ∨ (∃ a, i = .jmlAbslongind a) ∨ (∃ al, i = .jslLong al) ∨
      i = .rtlImp ∨ (i = .rtiImp ∧ s.e = false) ∨ (∃ k, i = .brkSig8 k) ∨ (∃ k, i = .copSig8 k)) ∧
    (t.dbr ≠ s.dbr → i = .plbImp ∨ (∃ dst src, i = .mvnBlk dst src) ∨ (∃ dst src, i = .mvpBlk dst src)) ∧
    (t.d ≠ s.d → i = .tcdImp ∨ i = .pldImp) ∧
    (t.e ≠ s.e → i = .xceImp) ∧
    (t.run ≠ s.run → i = .waiImp ∨ i = .stpImp) ∧
    t.params = s.params ∧ t.diag = s.diag

/-- Every instruction charges the cost that the grid of R464 gives its opcode, with the modifiers of R461 and R462
taken from the state before it; the cost is at least 2 and at most 9 (R460, R463); the counter wraps modulo 2^64
(R45). Decisions of the spec (92_eei_decisions.md) it rests on: D12, D14, D17, D19, D20, D31. -/
def Obligations.CyclesFollowGrid : Prop :=
  (∀ (i : Instr) (s t : State), exec i s = .next t → t.cycles = s.cycles + BitVec.ofNat 64 (gridCost s i)) ∧
    ∀ (i : Instr) (s : State), 2 ≤ gridCost s i ∧ gridCost s i ≤ 9

/-! ### Reset and the host's calls -/

/-- `reset` applies the power-on pattern, loads PC from $00:FFFC with exactly two reads, and keeps memory, the
parameters and the diagnostic records (R450, R452, R453). Decisions of the spec (92_eei_decisions.md) it rests on:
D10, D11. -/
def Obligations.ResetAppliesPattern : Prop :=
  ∀ s : State,
    let t := hostReset s
    let vector := [bank0 0xFFFC, bank0 0xFFFD]
    t.c = 0x0000 ∧ t.x = 0x0000 ∧ t.y = 0x0000 ∧ t.sp = 0x01FF ∧ t.d = 0x0000 ∧ t.dbr = 0x00 ∧ t.pbr = 0x00 ∧
    t.p = 0x34 ∧ t.e = true ∧ t.run = .running ∧ t.cycles = 0 ∧
    t.pc.toNat = littleEndian (answers s vector) ∧
    t.trace = s.trace ++ readEvents s vector ∧ t.mem = s.mem ∧ t.params = s.params ∧ t.diag = s.diag

/-- Two resets in a row give identical registers, with a RAM collaborator: the document's own sentence in R455.
The other clauses are the inference that R455 marks as derived, from R450 to R453 and R76: the state after `reset`
depends only on the two bytes the collaborator answers for the reset vector, and the cycle counter is 0 after it.
Decisions of the spec (92_eei_decisions.md) it rests on: D10, D11, D35. -/
def Obligations.ResetIsIdempotent : Prop :=
  ∀ s u : State,
    let vector := [bank0 0xFFFC, bank0 0xFFFD]
    let t := hostReset s
    (answers u vector = answers s vector → hostReset u =
      { t with mem := u.mem, trace := u.trace ++ readEvents u vector, diag := u.diag, params := u.params }) ∧
    t.cycles = 0 ∧
    (s.params.oracleRanges = [] → hostReset t = { t with trace := t.trace ++ readEvents t vector })

/-- `interrupt`: ignored while Stopped; a masked IRQ is not taken and at most ends a wait; otherwise the core runs
again, enters the handler, and is charged and returned the entry cost (R45, R300, R404, R410, R412). Decisions of
the spec (92_eei_decisions.md) it rests on: D15, D16, D17, D26, D28, D29, D31, D33. -/
def Obligations.InterruptDelivery : Prop :=
  ∀ (k : InterruptKind) (s : State),
    let masked := k = .irq ∧ s.flag .i = true
    (s.run = .stopped → interrupt k s = (0, s)) ∧
    (s.run ≠ .stopped → masked → interrupt k s =
      (0, if s.run = .waiting ∧ s.params.waiWakeOnMaskedIrq = true then { s with run := .running } else s)) ∧
    (s.run ≠ .stopped → ¬masked →
      let n := if s.e then s.params.interruptEntryCyclesEmu else s.params.interruptEntryCyclesNative
      (interrupt k s).1 = n ∧
      (interrupt k s).2.cycles = s.cycles + n.setWidth 64 ∧
      Enters k.entry { s with run := .running } (interrupt k s).2)

/-- BRK and COP enter their handlers (R300, R341, R342, R403 to R405). Decisions of the spec (92_eei_decisions.md)
it rests on: D26, D28, D29. -/
def Obligations.BrkAndCopEnterHandlers : Prop :=
  ∀ (s : State) (k : Byte),
    (∃ t, exec (.brkSig8 k) s = .next t ∧ Enters .brk s t) ∧ ∃ t, exec (.copSig8 k) s = .next t ∧ Enters .cop s t

/-- RTI pulls P through `setP`, then PC, then PBR in native mode (R43, R301, R326, R420). Decisions of the spec
(92_eei_decisions.md) it rests on: D9, D26. -/
def Obligations.RtiRestoresFrame : Prop :=
  ∀ s : State, ∃ t, exec .rtiImp s = .next t ∧
    let n := if s.e then 2 else 3
    let frame := answers s (pullAddrs s (n + 1))
    StatusSet s t (frame.getD 0 0) ∧ t.pc = word (frame.getD 2 0) (frame.getD 1 0) ∧
    t.pbr = (if s.e then s.pbr else frame.getD 3 0) ∧
    Pulls n s t ∧ t.diag = s.diag ∧ t.params = s.params ∧
    t.c = s.c ∧ t.d = s.d ∧ t.dbr = s.dbr ∧ t.e = s.e ∧ t.run = s.run

/-- With a RAM collaborator, a return right after any interrupt entry restores P, PC, S and the index registers,
and PBR in native mode; in emulation mode PBR stays $00 (R42, R43, R300, R301, R404, R405, R420). Decisions of the
spec (92_eei_decisions.md) it rests on: D9, D26, D28, D29. -/
def Obligations.EntryThenReturnRestores : Prop :=
  ∀ (k : EntryKind) (s : State), Inv s → s.params.oracleRanges = [] →
    let t := (s.enterInterrupt k).returnFromInterrupt
    t.p = s.p ∧ t.pc = s.pc ∧ t.sp = s.sp ∧ t.x = s.x ∧ t.y = s.y ∧ t.pbr = (if s.e then 0x00 else s.pbr) ∧
      t.c = s.c ∧ t.d = s.d ∧ t.dbr = s.dbr ∧ t.e = s.e ∧ t.run = s.run

/-- With a RAM collaborator, a return right after a call comes back to the byte after the call, with S and PBR as
before it (R300, R301, R322 to R325). Decisions of the spec (92_eei_decisions.md) it rests on: D8, D26. -/
def Obligations.CallThenReturnRestores : Prop :=
  ∀ (s : State) (a : Word) (al : Addr), Inv s → s.params.oracleRanges = [] →
    let comesBack := fun call ret : Instr => ∃ t, exec call s = .next t ∧ ∃ u, exec ret t = .next u ∧
      u.pc = s.pc ∧ u.pbr = s.pbr ∧ u.sp = s.sp
    comesBack (.jsrAbs a) .rtsImp ∧ comesBack (.jsrAbsxind a) .rtsImp ∧ comesBack (.jslLong al) .rtlImp

/-- With a RAM collaborator, a pull after a push returns the value and leaves S as it was, in both modes and
across every wrap (R303). -/
def Obligations.PushThenPullReturns : Prop :=
  ∀ (s : State) (v : Word) (w : Width),
    (s.e = true → hi s.sp = 0x01) → s.params.oracleRanges = [] → v.toNat < 2 ^ w.bits →
    ((s.pushW v w).pullW w).1 = v ∧ ((s.pushW v w).pullW w).2.sp = s.sp

/-- The width-aware accessors, in both modes and under both policies: what `set_a`, `set_x` and `set_y` write
reads back as its low byte in 8-bit mode and whole in 16-bit mode. Where native mode then widens the register
through `set_p` (R43, R61), the untouched high byte comes back, which for an index register under the policy Zero
is $00 (R42, R60). Decisions of the spec (92_eei_decisions.md) it rests on: D9, D27. -/
def Obligations.AccessorsAreWidthAware : Prop :=
  ∀ (s : State) (v : Word),
    ((getA (setA v s)).toNat = if s.flag .m then v.toNat % 2 ^ 8 else v.toNat) ∧
    ((getX (setX v s)).toNat = if s.flag .x then v.toNat % 2 ^ 8 else v.toNat) ∧
    ((getY (setY v s)).toNat = if s.flag .x then v.toNat % 2 ^ 8 else v.toNat) ∧
    ∀ p : Byte, s.e = false →
      let high := fun old : Word => if s.params.indexNarrow = .zero then 0x00 else hi old
      (s.flag .m = true → p.getLsbD 5 = false → getA (setStatus p (setA v s)) = word (hi s.c) (lo v)) ∧
      (s.flag .x = true → p.getLsbD 4 = false →
        getX (setStatus p (setX v s)) = word (high s.x) (lo v) ∧
        getY (setStatus p (setY v s)) = word (high s.y) (lo v))

/-! ### Memory and addressing -/

/-- A RAM address reads as the byte last written to it, and a write changes no other address (R74, R80). Decisions
of the spec (92_eei_decisions.md) it rests on: D24. -/
def Obligations.RamReadsLastWrite : Prop :=
  ∀ (s : State) (a b : Addr) (v : Byte), s.oracleAt b = false →
    ((s.memWrite a v).memRead b).1 = if b = a then v else (s.memRead b).1

/-- Memories in canonical form that read alike are equal (the model's own form of memory, log 2). -/
def Obligations.CanonicalMemoryIsUnique : Prop :=
  ∀ m m' : Memory, Memory.wf m = true → Memory.wf m' = true →
    (∀ a, Memory.read m a = Memory.read m' a) → m = m'

/-- The addresses of the direct-page and stack-relative modes: in bank $00, D or S plus the offset and the index
modulo 2^16, but inside the page D[15:8] where the emulation-mode wrap applies; no call is made (R134 to R136,
R142). Decisions of the spec (92_eei_decisions.md) it rests on: D6. -/
def Obligations.DirectAndStackAddresses : Prop :=
  ∀ (s : State) (d : Byte),
    let at' := fun (m : DataMode) (addr : Nat) =>
      (s.ea m).addr = bank0 addr ∧ (s.ea m).seq = .bank0 ∧ (s.ea m).crossed = false ∧ (s.ea m).st = s
    let dp := fun n : Nat =>
      if s.params.emuDpPageWrap = true ∧ s.e = true ∧ s.d.toNat % 2 ^ 8 = 0 then s.d.toNat + n % 2 ^ 8
      else s.d.toNat + n
    at' (.dp d) (dp d.toNat) ∧ at' (.dpx d) (dp (d.toNat + s.readX.toNat)) ∧
    at' (.dpy d) (dp (d.toNat + s.readY.toNat)) ∧ at' (.sr d) (s.sp.toNat + d.toNat)

/-- The addresses of the indirect modes: the pointer's bytes are read in order from bank $00, and the index of the
`,Y` modes is added to the 24-bit address; the pointer of the direct-page modes wraps as R135 says (R137 to R141,
R143, R154). Decisions of the spec (92_eei_decisions.md) it rests on: D6. -/
def Obligations.IndirectAddresses : Prop :=
  ∀ (s : State) (d : Byte),
    let at' := fun (m : DataMode) (ptr : List Addr) (addr : Nat) (crossed : Bool) =>
      (s.ea m).addr = BitVec.ofNat 24 addr ∧ (s.ea m).seq = .long ∧ (s.ea m).crossed = crossed ∧
        (s.ea m).st = { s with trace := s.trace ++ readEvents s ptr }
    let wrap := s.params.emuDpPageWrap = true ∧ s.e = true ∧ s.d.toNat % 2 ^ 8 = 0
    let dp := fun n : Nat => if wrap then s.d.toNat + n % 2 ^ 8 else s.d.toNat + n
    let ptr := fun n : Nat => [bank0 (dp n), if wrap then bank0 (dp (n + 1)) else bank0 (dp n + 1)]
    let long := fun n : Nat => [bank0 (s.d.toNat + n), bank0 (s.d.toNat + n + 1), bank0 (s.d.toNat + n + 2)]
    let stack := [bank0 (s.sp.toNat + d.toNat), bank0 (s.sp.toNat + d.toNat + 1)]
    let p := fun addrs : List Addr => littleEndian (answers s addrs)
    let data := s.dbr.toNat * 2 ^ 16
    let y := s.readY.toNat
    at' (.dpind d) (ptr d.toNat) (data + p (ptr d.toNat)) false ∧
    at' (.dpxind d) (ptr (d.toNat + s.readX.toNat)) (data + p (ptr (d.toNat + s.readX.toNat))) false ∧
    at' (.dpindy d) (ptr d.toNat) (data + p (ptr d.toNat) + y)
      (decide ((p (ptr d.toNat) + y) / 2 ^ 8 ≠ p (ptr d.toNat) / 2 ^ 8)) ∧
    at' (.dplong d) (long d.toNat) (p (long d.toNat)) false ∧
    at' (.dplongy d) (long d.toNat) (p (long d.toNat) + y) false ∧
    at' (.sriy d) stack (data + p stack + y) false

/-- The addresses of the absolute and long modes: DBR or the operand gives the bank, and an index carries into it
(R144 to R146, R154). -/
def Obligations.AbsoluteAndLongAddresses : Prop :=
  ∀ (s : State) (a : Word) (al : Addr),
    let at' := fun (m : DataMode) (addr : Nat) (crossed : Bool) =>
      (s.ea m).addr = BitVec.ofNat 24 addr ∧ (s.ea m).seq = .long ∧ (s.ea m).crossed = crossed ∧ (s.ea m).st = s
    let data := s.dbr.toNat * 2 ^ 16 + a.toNat
    let crosses := fun index : Nat => decide ((a.toNat + index) / 2 ^ 8 ≠ a.toNat / 2 ^ 8)
    at' (.abs a) data false ∧ at' (.absx a) (data + s.readX.toNat) (crosses s.readX.toNat) ∧
    at' (.absy a) (data + s.readY.toNat) (crosses s.readY.toNat) ∧ at' (.long al) al.toNat false ∧
    at' (.longx al) (al.toNat + s.readX.toNat) false

/-- Reading an operand: a memory operand is read after its pointer, low byte first, at the addresses of its
sequence; an immediate is its own bytes, and makes no call (R73, R75, R86, R103, R132). Decisions of the spec
(92_eei_decisions.md) it rests on: D3, D7, D8. -/
def Obligations.OperandReadsLowByteFirst : Prop :=
  (∀ (s : State) (m : DataMode) (w : Width),
    let r := s.ea m
    let f := s.operandRead (.mem m) w
    let addrs := byteAddrs r.seq r.addr (w.bits / 8)
    f.val.toNat = littleEndian (answers r.st addrs) ∧ f.crossed = r.crossed ∧
      f.st = { s with trace := r.st.trace ++ readEvents r.st addrs }) ∧
  ∀ (s : State) (k : Imm) (w : Width), k.fits w = true →
    let f := s.operandRead (.imm k) w
    f.val.toNat = littleEndian k.bytes ∧ f.crossed = false ∧ f.st = s

/-! ### The ALU -/

/-- Binary addition: the sum modulo 2^w, the unsigned carry, the two's-complement overflow, Z and N of the result,
and the half-carry (R171, R172, R181; the half-carry is an output that nothing stores, log 14). Decisions of the
spec (92_eei_decisions.md) it rests on: D22. -/
def Obligations.BinaryAddition : Prop :=
  ∀ (w : Width) (a b : Word) (c : Bool), a.toNat < 2 ^ w.bits → b.toNat < 2 ^ w.bits →
    let o := addBin w a b c
    let exact := signed w a + signed w b + c.toNat
    o.result.toNat = (a.toNat + b.toNat + c.toNat) % 2 ^ w.bits ∧
    o.c = decide (2 ^ w.bits ≤ a.toNat + b.toNat + c.toNat) ∧
    o.v = decide (exact < -2 ^ (w.bits - 1) ∨ 2 ^ (w.bits - 1) ≤ exact) ∧
    (∀ p, flagOf (addFlags w o p) .z = decide (o.result.toNat = 0) ∧
      flagOf (addFlags w o p) .n = decide (2 ^ (w.bits - 1) ≤ o.result.toNat)) ∧
    o.h = decide (15 < a.toNat % 16 + b.toNat % 16 + c.toNat)

/-- Binary subtraction: the difference modulo 2^w, the carry that means no borrow, the two's-complement overflow,
Z and N of the result, the half-borrow (R171, R173, R181; log 14), and that it is the addition of the complement,
which R173 marks as derived. Decisions of the spec (92_eei_decisions.md) it rests on: D22. -/
def Obligations.BinarySubtraction : Prop :=
  ∀ (w : Width) (a b : Word) (c : Bool), a.toNat < 2 ^ w.bits → b.toNat < 2 ^ w.bits →
    let o := subBin w a b c
    let o' := addBin w a (~~~b &&& w.mask) c
    let exact := signed w a - signed w b - (1 - c.toNat)
    o.result.toNat = (a.toNat + 2 ^ w.bits - b.toNat - (1 - c.toNat)) % 2 ^ w.bits ∧
    o.c = decide (b.toNat + (1 - c.toNat) ≤ a.toNat) ∧
    o.v = decide (exact < -2 ^ (w.bits - 1) ∨ 2 ^ (w.bits - 1) ≤ exact) ∧
    (∀ p, flagOf (addFlags w o p) .z = decide (o.result.toNat = 0) ∧
      flagOf (addFlags w o p) .n = decide (2 ^ (w.bits - 1) ≤ o.result.toNat)) ∧
    o.h = decide (a.toNat % 16 < b.toNat % 16 + (1 - c.toNat)) ∧
    o.result = o'.result ∧ o.c = o'.c ∧ o.v = o'.v

/-- Decimal addition. For every operand, decimal or not, each digit is the sum of the two digits and the carry
from the digit below, a sum above 9 gains 6 and carries, C is the last carry, and V compares the signs of the
operands with that of the top digit's sum before it is adjusted; Z and N are those of the result. For decimal
numbers that is the decimal sum modulo 10^n and its carry (R182). Decisions of the spec (92_eei_decisions.md) it
rests on: D21. -/
def Obligations.DecimalAddition : Prop :=
  ∀ (w : Width) (a b : Word) (c : Bool),
    let n := w.bits / 4
    let o := addDec w a b c
    let top := nibble a (n - 1) + nibble b (n - 1) + addCarry a b c (n - 1)
    let negative := fun digit : Nat => decide (8 ≤ digit)
    (o.result.toNat = ofDigits n (addDigit a b c) ∧ o.c = decide (addCarry a b c n = 1) ∧
      o.v = (negative (nibble a (n - 1)) == negative (nibble b (n - 1)) &&
        negative (nibble a (n - 1)) != negative (top % 16)) ∧
      ∀ p, flagOf (addFlags w o p) .z = decide (o.result.toNat = 0) ∧
        flagOf (addFlags w o p) .n = decide (2 ^ (w.bits - 1) ≤ o.result.toNat)) ∧
    (isBcd n a → isBcd n b →
      let sum := bcdValue n a + bcdValue n b + c.toNat
      isBcd n o.result ∧ bcdValue n o.result = sum % 10 ^ n ∧ o.c = decide (10 ^ n ≤ sum))

/-- Decimal subtraction. For every operand, decimal or not, each digit is the difference of the two digits less
the borrow from the digit below, a digit that borrows gains 10 in four bits, C is that the last digit did not
borrow, and V compares the signs of the operands with that of the top digit's difference before it is adjusted; Z
and N are those of the result. For decimal numbers that is the decimal difference modulo 10^n, with the carry set
exactly when no borrow occurred (R183). Decisions of the spec (92_eei_decisions.md) it rests on: D21. -/
def Obligations.DecimalSubtraction : Prop :=
  ∀ (w : Width) (a b : Word) (c : Bool),
    let n := w.bits / 4
    let o := subDec w a b c
    let top := nibble a (n - 1) + 16 - nibble b (n - 1) - subBorrow a b c (n - 1)
    let negative := fun digit : Nat => decide (8 ≤ digit)
    (o.result.toNat = ofDigits n (subDigit a b c) ∧ o.c = decide (subBorrow a b c n = 0) ∧
      o.v = (negative (nibble a (n - 1)) != negative (nibble b (n - 1)) &&
        negative (nibble a (n - 1)) != negative (top % 16)) ∧
      ∀ p, flagOf (addFlags w o p) .z = decide (o.result.toNat = 0) ∧
        flagOf (addFlags w o p) .n = decide (2 ^ (w.bits - 1) ≤ o.result.toNat)) ∧
    (isBcd n a → isBcd n b →
      let taken := bcdValue n b + (1 - c.toNat)
      isBcd n o.result ∧ bcdValue n o.result = (bcdValue n a + 10 ^ n - taken) % 10 ^ n ∧
        o.c = decide (taken ≤ bcdValue n a))

/-! ### Loads, stores and transfers -/

/-- LDA, every form: the operand goes to the accumulator at the live width (B kept at 8 bits), N and Z follow it
(R41, R200). -/
def Obligations.LdaLoadsAccumulator : Prop :=
  ∀ (s : State) (src : Operand) (i : Instr), ldaForm src = some i →
    let f := s.operandRead src s.wA
    ∃ t, exec i s = .next t ∧ WritesA s t f.val ∧ NZ t f.val s.wA ∧ Keeps [.c] [.n, .z] s t ∧
      MemKeptBut [] s t ∧ t.trace = f.st.trace

/-- LDX and LDY, every form (R42, R201, R202). Decisions of the spec (92_eei_decisions.md) it rests on: D9. -/
def Obligations.LdxLdyLoadIndex : Prop :=
  ∀ (s : State) (src : Operand) (i : Instr),
    let f := s.operandRead src s.wX
    (ldxForm src = some i → ∃ t, exec i s = .next t ∧ WritesIndex s s.x t.x f.val ∧ NZ t f.val s.wX ∧
      Keeps [.x] [.n, .z] s t ∧ MemKeptBut [] s t ∧ t.trace = f.st.trace) ∧
    (ldyForm src = some i → ∃ t, exec i s = .next t ∧ WritesIndex s s.y t.y f.val ∧ NZ t f.val s.wX ∧
      Keeps [.y] [.n, .z] s t ∧ MemKeptBut [] s t ∧ t.trace = f.st.trace)

/-- STA, every form: the accumulator's bytes at the live width, low byte first, at the operand's address, and
nothing else (R86, R203). Decisions of the spec (92_eei_decisions.md) it rests on: D7. -/
def Obligations.StaStoresAccumulator : Prop :=
  ∀ (s : State) (m : DataMode) (i : Instr), staForm m = some i →
    let r := s.ea m
    ∃ t, exec i s = .next t ∧ Keeps [] [] s t ∧
      Stores (byteAddrs r.seq r.addr (s.wA.bits / 8)) (valueBytes s.c s.wA) (r.st.trace.drop s.trace.length) s t

/-- STX, STY and STZ, every form (R86, R204 to R206). Decisions of the spec (92_eei_decisions.md) it rests on:
D7. -/
def Obligations.StxStyStzStore : Prop :=
  ∀ (s : State) (m : DataMode) (i : Instr),
    let r := s.ea m
    let stores := fun (v : Word) (w : Width) => ∃ t, exec i s = .next t ∧ Keeps [] [] s t ∧
      Stores (byteAddrs r.seq r.addr (w.bits / 8)) (valueBytes v w) (r.st.trace.drop s.trace.length) s t
    (stxForm m = some i → stores s.x s.wX) ∧ (styForm m = some i → stores s.y s.wX) ∧
      (stzForm m = some i → stores 0x0000 s.wA)

/-- TAX, TYX, TSX, TAY and TXY: the source at the index width, all 16 bits of C or S where that is 16; N and Z
from the index register (R42, R207, R208, R211 to R213). Decisions of the spec (92_eei_decisions.md) it rests on:
D9. -/
def Obligations.TransfersIntoIndex : Prop :=
  ∀ s : State,
    let intoX := fun (i : Instr) (v : Word) => ∃ t, exec i s = .next t ∧ WritesIndex s s.x t.x v ∧ NZ t v s.wX ∧
      Keeps [.x] [.n, .z] s t ∧ MemKeptBut [] s t ∧ t.trace = s.trace
    let intoY := fun (i : Instr) (v : Word) => ∃ t, exec i s = .next t ∧ WritesIndex s s.y t.y v ∧ NZ t v s.wX ∧
      Keeps [.y] [.n, .z] s t ∧ MemKeptBut [] s t ∧ t.trace = s.trace
    intoX .taxImp s.c ∧ intoX .tyxImp s.y ∧ intoX .tsxImp s.sp ∧ intoY .tayImp s.c ∧ intoY .txyImp s.x

/-- TXA and TYA: the index at its own width, zero-extended, into the accumulator at its width; TSC and TDC: all 16
bits whatever P.M holds; XBA exchanges the halves and takes N and Z from the new A at 8 bits (R209, R210, R216,
R218, R219). -/
def Obligations.TransfersIntoAccumulator : Prop :=
  ∀ s : State,
    let quiet := fun t : State => Keeps [.c] [.n, .z] s t ∧ MemKeptBut [] s t ∧ t.trace = s.trace
    let index := fun v : Word => if s.flag .x then v &&& 0x00FF else v
    (∃ t, exec .txaImp s = .next t ∧ WritesA s t (index s.x) ∧ NZ t (index s.x) s.wA ∧ quiet t) ∧
    (∃ t, exec .tyaImp s = .next t ∧ WritesA s t (index s.y) ∧ NZ t (index s.y) s.wA ∧ quiet t) ∧
    (∃ t, exec .tscImp s = .next t ∧ t.c = s.sp ∧ NZ t s.sp .w16 ∧ quiet t) ∧
    (∃ t, exec .tdcImp s = .next t ∧ t.c = s.d ∧ NZ t s.d .w16 ∧ quiet t) ∧
    ∃ t, exec .xbaImp s = .next t ∧ lo t.c = hi s.c ∧ hi t.c = lo s.c ∧ NZ t t.c .w8 ∧ quiet t

/-- TXS and TCS write S, pinned to page $01 in emulation mode, with no flag; TCD writes all 16 bits of C to D with
16-bit flags (R214, R215, R217). -/
def Obligations.TransfersIntoStackAndDirect : Prop :=
  ∀ s : State,
    let pinned := fun (t : State) (v : Word) => if s.e then hi t.sp = 0x01 ∧ lo t.sp = lo v else t.sp = v
    (∃ t, exec .txsImp s = .next t ∧ pinned t (if s.flag .x then s.x &&& 0x00FF else s.x) ∧
      Keeps [.sp] [] s t ∧ MemKeptBut [] s t ∧ t.trace = s.trace) ∧
    (∃ t, exec .tcsImp s = .next t ∧ pinned t s.c ∧ Keeps [.sp] [] s t ∧ MemKeptBut [] s t ∧ t.trace = s.trace) ∧
    ∃ t, exec .tcdImp s = .next t ∧ t.d = s.c ∧ NZ t s.c .w16 ∧ Keeps [.d] [.n, .z] s t ∧ MemKeptBut [] s t ∧
      t.trace = s.trace

/-! ### Arithmetic and logic -/

/-- ORA, AND and EOR, every form: the result with its N and Z (R175, R240 to R242), written to the accumulator at
the live width, B kept at 8 bits (R41). -/
def Obligations.LogicWritesAccumulator : Prop :=
  ∀ (s : State) (src : Operand) (i : Instr),
    let f := s.operandRead src s.wA
    let gives := fun v : Word => ∃ t, exec i s = .next t ∧ WritesA s t v ∧ NZ t v s.wA ∧ Keeps [.c] [.n, .z] s t ∧
      MemKeptBut [] s t ∧ t.trace = f.st.trace
    (oraForm src = some i → gives (s.c ||| f.val)) ∧ (andAForm src = some i → gives (s.c &&& f.val)) ∧
      (eorForm src = some i → gives (s.c ^^^ f.val))

/-- ADC, every form: binary or decimal by P.D, with P.C as the carry-in (R41, R172, R182, R184, R243). Decisions
of the spec (92_eei_decisions.md) it rests on: D21. -/
def Obligations.AdcAddsWithCarry : Prop :=
  ∀ (s : State) (src : Operand) (i : Instr), adcForm src = some i →
    let f := s.operandRead src s.wA
    let o := (if s.flag .d then addDec else addBin) s.wA (getA s) f.val (s.flag .c)
    ∃ t, exec i s = .next t ∧ WritesA s t o.result ∧ t.flag .c = o.c ∧ t.flag .v = o.v ∧ NZ t o.result s.wA ∧
      Keeps [.c] [.n, .v, .z, .c] s t ∧ MemKeptBut [] s t ∧ t.trace = f.st.trace

/-- SBC, every form: binary or decimal by P.D, with `1 - P.C` as the borrow-in (R41, R173, R183, R184, R244).
Decisions of the spec (92_eei_decisions.md) it rests on: D21. -/
def Obligations.SbcSubtractsWithBorrow : Prop :=
  ∀ (s : State) (src : Operand) (i : Instr), sbcForm src = some i →
    let f := s.operandRead src s.wA
    let o := (if s.flag .d then subDec else subBin) s.wA (getA s) f.val (s.flag .c)
    ∃ t, exec i s = .next t ∧ WritesA s t o.result ∧ t.flag .c = o.c ∧ t.flag .v = o.v ∧ NZ t o.result s.wA ∧
      Keeps [.c] [.n, .v, .z, .c] s t ∧ MemKeptBut [] s t ∧ t.trace = f.st.trace

/-- CMP, CPX and CPY, every form, whatever P.D holds: C exactly when the register is at least the operand, Z when
they are equal, N the sign of the difference; V is kept, and no register and no memory is written (R174, R184,
R245 to R247). -/
def Obligations.CompareSetsFlagsOnly : Prop :=
  ∀ (s : State) (src : Operand) (i : Instr),
    let compares := fun (v : Word) (w : Width) =>
      let f := s.operandRead src w
      let a := v.toNat % 2 ^ w.bits
      let b := f.val.toNat
      ∃ t, exec i s = .next t ∧ t.flag .c = decide (b ≤ a) ∧ t.flag .z = decide (a = b) ∧
        t.flag .n = decide (2 ^ (w.bits - 1) ≤ (a + 2 ^ w.bits - b) % 2 ^ w.bits) ∧
        Keeps [] [.n, .z, .c] s t ∧ MemKeptBut [] s t ∧ t.trace = f.st.trace
    (cmpForm src = some i → compares s.c s.wA) ∧ (cpxForm src = some i → compares s.x s.wX) ∧
      (cpyForm src = some i → compares s.y s.wX)

/-- BIT: Z from the accumulator and the operand; N and V are the operand's top two bits in the memory modes and
kept by the immediate (R179, R248). -/
def Obligations.BitTestsOperand : Prop :=
  ∀ s : State,
    let zero := fun v : Word => decide ((getA s &&& v).toNat = 0)
    let top := fun (v : Word) (k : Nat) => decide (v.toNat / 2 ^ (s.wA.bits - k) % 2 = 1)
    (∀ (m : DataMode) (i : Instr), bitForm m = some i →
      let f := s.operandRead (.mem m) s.wA
      ∃ t, exec i s = .next t ∧ t.flag .z = zero f.val ∧ t.flag .n = top f.val 1 ∧ t.flag .v = top f.val 2 ∧
        Keeps [] [.n, .v, .z] s t ∧ MemKeptBut [] s t ∧ t.trace = f.st.trace) ∧
    ∀ k : Imm, ∃ t, exec (.bitImmM k) s = .next t ∧
      t.flag .z = zero (s.operandRead (.imm k) s.wA).val ∧ Keeps [] [.z] s t ∧ MemKeptBut [] s t ∧
      t.trace = s.trace

/-- ASL, LSR, ROL and ROR on memory: the operand's bytes are read, then the shifted value is written to the same
bytes, with C the bit shifted out and N and Z of the result (R176, R177, R260 to R264). Decisions of the spec
(92_eei_decisions.md) it rests on: D8. -/
def Obligations.ShiftsModifyMemory : Prop :=
  ∀ (kind : ShiftKind) (s : State) (m : DataMode) (i : Instr), shiftForm kind m = some i →
    let r := s.ea m
    let addrs := byteAddrs r.seq r.addr (s.wA.bits / 8)
    let v := littleEndian (answers r.st addrs)
    let v' := BitVec.ofNat 16 (shifted s.wA.bits v (s.flag .c).toNat kind)
    ∃ t, exec i s = .next t ∧
      Stores addrs (valueBytes v' s.wA) (r.st.trace.drop s.trace.length ++ readEvents r.st addrs) s t ∧
      t.flag .c = shiftedOut s.wA.bits v kind ∧ NZ t v' s.wA ∧ Keeps [] [.n, .z, .c] s t

/-- INC, DEC, TSB and TRB on memory: the same sequence; INC and DEC define N and Z, TSB and TRB only Z, from the
value before the change (R178, R180, R260, R265 to R268). Decisions of the spec (92_eei_decisions.md) it rests on:
D8. -/
def Obligations.CountersAndBitsModifyMemory : Prop :=
  ∀ (s : State) (m : DataMode) (i : Instr),
    let r := s.ea m
    let addrs := byteAddrs r.seq r.addr (s.wA.bits / 8)
    let v := littleEndian (answers r.st addrs)
    let stores := fun (v' : Word) (t : State) =>
      Stores addrs (valueBytes v' s.wA) (r.st.trace.drop s.trace.length ++ readEvents r.st addrs) s t
    let counts := fun up : Bool =>
      let v' := BitVec.ofNat 16 (counted s.wA.bits v up)
      ∃ t, exec i s = .next t ∧ stores v' t ∧ NZ t v' s.wA ∧ Keeps [] [.n, .z] s t
    let tests := fun v' : Word =>
      ∃ t, exec i s = .next t ∧ stores v' t ∧
        t.flag .z = decide ((getA s &&& BitVec.ofNat 16 v).toNat = 0) ∧ Keeps [] [.z] s t
    (incForm m = some i → counts true) ∧ (decForm m = some i → counts false) ∧
      (tsbForm m = some i → tests (BitVec.ofNat 16 v ||| getA s)) ∧
      (trbForm m = some i → tests (BitVec.ofNat 16 v &&& ~~~(getA s)))

/-- ASL, LSR, ROL, ROR, INC and DEC on the accumulator, with no memory access (R152, R176 to R178, R260 to R266).
Decisions of the spec (92_eei_decisions.md) it rests on: D8. -/
def Obligations.AccumulatorIsModifiedInPlace : Prop :=
  ∀ s : State,
    let a := (getA s).toNat
    let quiet := fun (t : State) (flags : List Flag) => Keeps [.c] flags s t ∧ MemKeptBut [] s t ∧ t.trace = s.trace
    (∀ kind : ShiftKind,
      let v := BitVec.ofNat 16 (shifted s.wA.bits a (s.flag .c).toNat kind)
      ∃ t, exec (shiftAccForm kind) s = .next t ∧ WritesA s t v ∧ t.flag .c = shiftedOut s.wA.bits a kind ∧
        NZ t v s.wA ∧ quiet t [.n, .z, .c]) ∧
    ∀ up : Bool,
      let v := BitVec.ofNat 16 (counted s.wA.bits a up)
      ∃ t, exec (if up then .incAcc else .decAcc) s = .next t ∧ WritesA s t v ∧ NZ t v s.wA ∧ quiet t [.n, .z]

/-- INX, INY, DEX and DEY: the value plus or minus one modulo 2^w at the index width, with its N and Z, and never
C or V (R178, which INC and DEC follow too, and R270 to R273). The register is written as R42 says, so that at 8
bits its high byte follows INDEX_NARROW_POLICY, a decision of the spec and not of R178. Decisions of the spec
(92_eei_decisions.md) it rests on: D9. -/
def Obligations.IndexRegistersCount : Prop :=
  ∀ (s : State) (up : Bool),
    let quiet := fun (t : State) (r : Reg) => Keeps [r] [.n, .z] s t ∧ MemKeptBut [] s t ∧ t.trace = s.trace
    let x := BitVec.ofNat 16 (counted s.wX.bits (getX s).toNat up)
    let y := BitVec.ofNat 16 (counted s.wX.bits (getY s).toNat up)
    (∃ t, exec (if up then .inxImp else .dexImp) s = .next t ∧ WritesIndex s s.x t.x x ∧ NZ t x s.wX ∧
      quiet t .x) ∧
    ∃ t, exec (if up then .inyImp else .deyImp) s = .next t ∧ WritesIndex s s.y t.y y ∧ NZ t y s.wX ∧ quiet t .y

/-! ### Mode and flags -/

/-- REP clears and SEP sets the bits of P that the operand selects, through `setP`, so that emulation mode keeps M
and X set (R43, R280, R281). Decisions of the spec (92_eei_decisions.md) it rests on: D9. -/
def Obligations.RepSepWriteStatus : Prop :=
  ∀ (s : State) (k : Byte),
    let sets := fun (i : Instr) (v : Byte) => ∃ t, exec i s = .next t ∧ StatusSet s t v ∧
      (∀ r, r ∉ [Reg.x, Reg.y] → reg t r = reg s r) ∧ t.diag = s.diag ∧ t.params = s.params ∧
      MemKeptBut [] s t ∧ t.trace = s.trace
    sets (.repImm8 k) (s.p &&& ~~~k) ∧ sets (.sepImm8 k) (s.p ||| k)

/-- XCE exchanges carry and E; where that leaves E set, both widths become 8 bits, the index high bytes 0 and the
stack page $01, and otherwise widths and registers are untouched (R282, R283, R291). -/
def Obligations.XceExchangesCarryAndEmulation : Prop :=
  ∀ s : State, ∃ t, exec .xceImp s = .next t ∧ t.flag .c = s.e ∧ t.e = s.flag .c ∧
    (if s.flag .c then
      t.flag .m = true ∧ t.flag .x = true ∧ hi t.x = 0x00 ∧ lo t.x = lo s.x ∧ hi t.y = 0x00 ∧ lo t.y = lo s.y ∧
        hi t.sp = 0x01 ∧ lo t.sp = lo s.sp
    else t.flag .m = s.flag .m ∧ t.flag .x = s.flag .x ∧ t.x = s.x ∧ t.y = s.y ∧ t.sp = s.sp) ∧
    Keeps [.x, .y, .sp, .e] [.c, .m, .x] s t ∧ MemKeptBut [] s t ∧ t.trace = s.trace

/-- CLC, SEC, CLI, SEI, CLD, SED and CLV write one bit of P and nothing else (R284 to R290). -/
def Obligations.SingleFlagInstructions : Prop :=
  ∀ s : State,
    let puts := fun (i : Instr) (f : Flag) (b : Bool) => ∃ t, exec i s = .next t ∧ t.flag f = b ∧
      Keeps [] [f] s t ∧ MemKeptBut [] s t ∧ t.trace = s.trace
    puts .clcImp .c false ∧ puts .secImp .c true ∧ puts .cliImp .i false ∧ puts .seiImp .i true ∧
      puts .cldImp .d false ∧ puts .sedImp .d true ∧ puts .clvImp .v false

/-! ### Stack and control transfer -/

/-- The pushes: PHA, PHX and PHY at the live width, PHP, PHB and PHK one byte, PHD, PEA, PEI and PER two, high
byte first, S page-pinned in emulation mode; nothing else changes (R300, R302, R304 to R306, R310, R312, R314,
R315, R317 to R319). Decisions of the spec (92_eei_decisions.md) it rests on: D26. -/
def Obligations.PushInstructions : Prop :=
  ∀ (s : State) (d : Byte) (v : Word),
    let pushes := fun (i : Instr) (bytes : List Byte) (before : List BusEvent) => ∃ t, exec i s = .next t ∧
      Pushes bytes before s t ∧ Keeps [.sp] [] s t
    let both := fun v : Word => [hi v, lo v]
    let sized := fun (v : Word) (w : Width) => (valueBytes v w).reverse
    let ptr := [bank0 (s.d.toNat + d.toNat), bank0 (s.d.toNat + d.toNat + 1)]
    pushes .phaImp (sized s.c s.wA) [] ∧ pushes .phxImp (sized s.x s.wX) [] ∧ pushes .phyImp (sized s.y s.wX) [] ∧
    pushes .phpImp [s.p] [] ∧ pushes .phbImp [s.dbr] [] ∧ pushes .phkImp [s.pbr] [] ∧ pushes .phdImp (both s.d) [] ∧
    pushes (.peaImm16 v) (both v) [] ∧ pushes (.perRel16 v) (both (BitVec.ofNat 16 (s.pc.toNat + v.toNat))) [] ∧
    pushes (.peiDpind d) (answers s ptr).reverse (readEvents s ptr)

/-- The pulls: PLA, PLX and PLY at the live width, PLB one byte, PLD two, with N and Z at that width; PLP one byte
through `setP` (R41 to R43, R301, R302, R307 to R309, R311, R313, R316). Decisions of the spec
(92_eei_decisions.md) it rests on: D9, D26. -/
def Obligations.PullInstructions : Prop :=
  ∀ s : State,
    let last := fun w : Width => w.bits / 8 - 1
    let got := fun n : Nat => BitVec.ofNat 16 (pulled s n)
    (∃ t, exec .plaImp s = .next t ∧ Pulls (last s.wA) s t ∧ WritesA s t (got (last s.wA)) ∧
      NZ t (got (last s.wA)) s.wA ∧ Keeps [.c, .sp] [.n, .z] s t) ∧
    (∃ t, exec .plxImp s = .next t ∧ Pulls (last s.wX) s t ∧ WritesIndex s s.x t.x (got (last s.wX)) ∧
      NZ t (got (last s.wX)) s.wX ∧ Keeps [.x, .sp] [.n, .z] s t) ∧
    (∃ t, exec .plyImp s = .next t ∧ Pulls (last s.wX) s t ∧ WritesIndex s s.y t.y (got (last s.wX)) ∧
      NZ t (got (last s.wX)) s.wX ∧ Keeps [.y, .sp] [.n, .z] s t) ∧
    (∃ t, exec .plbImp s = .next t ∧ Pulls 0 s t ∧ t.dbr.toNat = pulled s 0 ∧ NZ t (got 0) .w8 ∧
      Keeps [.dbr, .sp] [.n, .z] s t) ∧
    (∃ t, exec .pldImp s = .next t ∧ Pulls 1 s t ∧ t.d.toNat = pulled s 1 ∧ NZ t (got 1) .w16 ∧
      Keeps [.d, .sp] [.n, .z] s t) ∧
    ∃ t, exec .plpImp s = .next t ∧ Pulls 0 s t ∧ StatusSet s t (BitVec.ofNat 8 (pulled s 0)) ∧
      (∀ r, r ∉ [Reg.x, Reg.y, Reg.sp] → reg t r = reg s r) ∧ t.diag = s.diag ∧ t.params = s.params

/-- JMP and JML, every form: where the target is read and that only JML writes PBR (R147 to R150, R320, R321). -/
def Obligations.JumpsGoToTarget : Prop :=
  ∀ (s : State) (a : Word) (al : Addr),
    let jumps := fun (i : Instr) (regs : List Reg) (reads : List Addr) (pc pbr : Nat) => ∃ t, exec i s = .next t ∧
      t.pc.toNat = pc ∧ t.pbr.toNat = pbr ∧ Keeps regs [] s t ∧ MemKeptBut [] s t ∧
      t.trace = s.trace ++ readEvents s reads
    let p2 := [bank0 a.toNat, bank0 (a.toNat + 1)]
    let p3 := [bank0 a.toNat, bank0 (a.toNat + 1), bank0 (a.toNat + 2)]
    let q := fun k : Nat => addrOf s.pbr (BitVec.ofNat 16 (a.toNat + (getX s).toNat + k))
    jumps (.jmpAbs a) [.pc] [] a.toNat s.pbr.toNat ∧
    jumps (.jmpAbsind a) [.pc] p2 (littleEndian (answers s p2)) s.pbr.toNat ∧
    jumps (.jmpAbsxind a) [.pc] [q 0, q 1] (littleEndian (answers s [q 0, q 1])) s.pbr.toNat ∧
    jumps (.jmlLong al) [.pc, .pbr] [] (al.toNat % 2 ^ 16) (al.toNat / 2 ^ 16) ∧
    jumps (.jmlAbslongind a) [.pc, .pbr] p3 (littleEndian (answers s p3) % 2 ^ 16)
      (littleEndian (answers s p3) / 2 ^ 16)

/-- JSR and JSL push PBR (JSL only) and the return address less one, then go to the target; JSR (a,X) reads its
pointer after the pushes (R75, R300, R322, R323). Decisions of the spec (92_eei_decisions.md) it rests on: D8,
D26. -/
def Obligations.CallsPushReturnAddress : Prop :=
  ∀ (s : State) (a : Word) (al : Addr),
    let ret := BitVec.ofNat 16 (s.pc.toNat + 2 ^ 16 - 1)
    let bytes := [hi ret, lo ret]
    let calls := writeEvents (pushAddrs s 2) bytes
    let u := { s with mem := replay s.mem calls, trace := s.trace ++ calls }
    let q := fun k : Nat => addrOf s.pbr (BitVec.ofNat 16 (a.toNat + (getX s).toNat + k))
    (∃ t, exec (.jsrAbs a) s = .next t ∧ Pushes bytes [] s t ∧ t.pc = a ∧ Keeps [.sp, .pc] [] s t) ∧
    (∃ t, exec (.jsrAbsxind a) s = .next t ∧
      (∀ p ∈ (pushAddrs s 2).zip bytes, Memory.read t.mem p.1.toNat = p.2) ∧ MemKeptBut (pushAddrs s 2) s t ∧
      t.sp = spAfterPushes s 2 ∧ t.trace = s.trace ++ calls ++ readEvents u [q 0, q 1] ∧
      t.pc.toNat = littleEndian (answers u [q 0, q 1]) ∧ Keeps [.sp, .pc] [] s t) ∧
    ∃ t, exec (.jslLong al) s = .next t ∧ Pushes (s.pbr :: bytes) [] s t ∧ t.pc.toNat = al.toNat % 2 ^ 16 ∧
      t.pbr.toNat = al.toNat / 2 ^ 16 ∧ Keeps [.sp, .pc, .pbr] [] s t

/-- RTS and RTL pull the return address and add one inside the bank; RTL also pulls PBR (R301, R324, R325).
Decisions of the spec (92_eei_decisions.md) it rests on: D26. -/
def Obligations.ReturnsPullAddress : Prop :=
  ∀ s : State,
    let frame := answers s (pullAddrs s 3)
    let pc := (littleEndian (frame.take 2) + 1) % 2 ^ 16
    (∃ t, exec .rtsImp s = .next t ∧ Pulls 1 s t ∧ t.pc.toNat = pc ∧ Keeps [.sp, .pc] [] s t) ∧
    ∃ t, exec .rtlImp s = .next t ∧ Pulls 2 s t ∧ t.pc.toNat = pc ∧ t.pbr = frame.getD 2 0 ∧
      Keeps [.sp, .pc, .pbr] [] s t

/-- Every branch: taken exactly on its condition, to PCnext plus the sign-extended displacement inside the bank;
BRL always, over 16 bits (R151, R330 to R340). -/
def Obligations.BranchesGoToTarget : Prop :=
  ∀ s : State,
    let goes := fun (i : Instr) (pc : Nat) => ∃ t, exec i s = .next t ∧ t.pc.toNat = pc ∧ Keeps [.pc] [] s t ∧
      MemKeptBut [] s t ∧ t.trace = s.trace
    let disp := fun r : Byte => if r.toNat < 0x80 then r.toNat else r.toNat + 0xFF00
    (∀ (i : Instr) (taken : Bool) (r : Byte), branchForm s i = some (taken, r) →
      goes i (if taken then (s.pc.toNat + disp r) % 2 ^ 16 else s.pc.toNat)) ∧
    ∀ r : Word, goes (.brlRel16 r) ((s.pc.toNat + r.toNat) % 2 ^ 16)

/-! ### System -/

/-- MVN and MVP move one byte a step: from the source bank at X to the destination bank at Y, DBR becomes the
destination bank, X and Y move by one at the index width, C counts down in 16 bits, and PC goes back to the opcode
until C has wrapped (R42, R155, R362 to R364). Decisions of the spec (92_eei_decisions.md) it rests on: D9,
D19. -/
def Obligations.BlockMovesOneByte : Prop :=
  ∀ (s : State) (dst src : Byte) (up : Bool),
    let a := addrOf src (getX s)
    let b := addrOf dst (getY s)
    ∃ t, exec (if up then .mvnBlk dst src else .mvpBlk dst src) s = .next t ∧
      Stores [b] [s.answer a] [.read a (s.answer a)] s t ∧ t.dbr = dst ∧
      WritesIndex s s.x t.x (BitVec.ofNat 16 (counted 16 (getX s).toNat up)) ∧
      WritesIndex s s.y t.y (BitVec.ofNat 16 (counted 16 (getY s).toNat up)) ∧
      t.c.toNat = (s.c.toNat + 2 ^ 16 - 1) % 2 ^ 16 ∧
      t.pc.toNat = (if s.c.toNat = 0 then s.pc.toNat else (s.pc.toNat + 2 ^ 16 - 3) % 2 ^ 16) ∧
      Keeps [.c, .x, .y, .dbr, .pc] [] s t

/-- NOP and WDM change nothing; WAI and STP change the run state only (R360, R361, R365, R366; the cycle counter
is the subject of CyclesFollowGrid). Decisions of the spec (92_eei_decisions.md) it rests on: D2, D14, D15. -/
def Obligations.NopWdmWaiStp : Prop :=
  ∀ (s : State) (k : Byte),
    let runs := fun (i : Instr) (regs : List Reg) (run : RunState) => ∃ t, exec i s = .next t ∧ t.run = run ∧
      Keeps regs [] s t ∧ MemKeptBut [] s t ∧ t.trace = s.trace
    runs .nopImp [] s.run ∧ runs (.wdmImm8 k) [] s.run ∧ runs .waiImp [.run] .waiting ∧ runs .stpImp [.run] .stopped
end

