-- ==== Sys2Proof/Laws/Bits.lean ====
section
/-! SUPPORT. Laws of the bit fields of Machine/Bits.lean: halves and words, addresses, truncation. -/

namespace Sys2Proof

theorem lo_toNat (v : Word) : (lo v).toNat = v.toNat % 2 ^ 8 := by simp [lo]

theorem hi_toNat (v : Word) : (hi v).toNat = v.toNat / 2 ^ 8 := by
  simp only [hi, BitVec.extractLsb'_toNat, Nat.shiftRight_eq_div_pow]; omega

theorem word_toNat (h l : Byte) : (word h l).toNat = h.toNat * 2 ^ 8 + l.toNat := by
  have := l.isLt
  simp only [word, BitVec.toNat_append]
  rw [← Nat.shiftLeft_add_eq_or_of_lt this, Nat.shiftLeft_eq]

theorem addrOf_toNat (b : Byte) (o : Word) : (addrOf b o).toNat = b.toNat * 2 ^ 16 + o.toNat := by
  have := o.isLt
  simp only [addrOf, BitVec.toNat_append]
  rw [← Nat.shiftLeft_add_eq_or_of_lt this, Nat.shiftLeft_eq]

theorem alBank_toNat (a : Addr) : (alBank a).toNat = a.toNat / 2 ^ 16 := by
  simp only [alBank, BitVec.extractLsb'_toNat, Nat.shiftRight_eq_div_pow]; omega

theorem alOffset_toNat (a : Addr) : (alOffset a).toNat = a.toNat % 2 ^ 16 := by simp [alOffset]

theorem alLo_toNat (a : Addr) : (alLo a).toNat = a.toNat % 2 ^ 8 := by simp [alLo]

theorem alHi_toNat (a : Addr) : (alHi a).toNat = a.toNat / 2 ^ 8 % 2 ^ 8 := by
  simp only [alHi, BitVec.extractLsb'_toNat, Nat.shiftRight_eq_div_pow]

@[simp] theorem lo_word (h l : Byte) : lo (word h l) = l := by
  have := l.isLt
  apply BitVec.eq_of_toNat_eq; rw [lo_toNat, word_toNat]; omega

@[simp] theorem hi_word (h l : Byte) : hi (word h l) = h := by
  have := l.isLt
  apply BitVec.eq_of_toNat_eq; rw [hi_toNat, word_toNat]; omega

@[simp] theorem word_hi_lo (v : Word) : word (hi v) (lo v) = v := by
  apply BitVec.eq_of_toNat_eq; rw [word_toNat, lo_toNat, hi_toNat]; omega

@[simp] theorem alBank_append_word (al : Addr) : alBank al ++ word (alHi al) (alLo al) = al := by
  apply BitVec.eq_of_toNat_eq
  have := al.isLt
  have := addrOf_toNat (alBank al) (word (alHi al) (alLo al))
  rw [addrOf] at this
  rw [this, word_toNat, alBank_toNat, alHi_toNat, alLo_toNat]; omega

@[simp] theorem alBank_addrOf (b : Byte) (o : Word) : alBank (addrOf b o) = b := by
  have := o.isLt
  apply BitVec.eq_of_toNat_eq; rw [alBank_toNat, addrOf_toNat]; omega

@[simp] theorem alOffset_addrOf (b : Byte) (o : Word) : alOffset (addrOf b o) = o := by
  have := o.isLt
  apply BitVec.eq_of_toNat_eq; rw [alOffset_toNat, addrOf_toNat]; omega

theorem zext_toNat (b : Byte) : (zext b).toNat = b.toNat := by
  have := b.isLt
  simp only [zext, BitVec.toNat_setWidth]; omega

@[simp] theorem lo_zext (b : Byte) : lo (zext b) = b := by
  apply BitVec.eq_of_toNat_eq; rw [lo_toNat, zext_toNat]; omega

@[simp] theorem hi_zext (b : Byte) : hi (zext b) = 0 := by
  apply BitVec.eq_of_toNat_eq
  have := b.isLt
  rw [hi_toNat, zext_toNat, Nat.div_eq_of_lt this]; rfl

theorem sext_toNat (b : Byte) : (sext b).toNat = if b.toNat < 0x80 then b.toNat else b.toNat + 0xFF00 := by
  revert b; decide

theorem trunc_toNat (w : Width) (v : Word) : (w.trunc v).toNat = v.toNat % 2 ^ w.bits := by
  have := v.isLt
  cases w <;> simp only [Width.trunc, Width.bits, zext_toNat, lo_toNat]; omega

theorem trunc_of_lt {w : Width} {v : Word} (h : v.toNat < 2 ^ w.bits) : w.trunc v = v :=
  BitVec.eq_of_toNat_eq (by rw [trunc_toNat, Nat.mod_eq_of_lt h])

@[simp] theorem trunc_trunc (w : Width) (v : Word) : w.trunc (w.trunc v) = w.trunc v := by
  cases w <;> simp [Width.trunc]

@[simp] theorem lo_trunc (w : Width) (v : Word) : lo (w.trunc v) = lo v := by
  cases w <;> simp [Width.trunc]

/-- Two words with equal halves are equal. -/
theorem word_ext {a b : Word} (hl : lo a = lo b) (hh : hi a = hi b) : a = b := by
  rw [← word_hi_lo a, hl, hh, word_hi_lo]

end Sys2Proof
end

