-- ==== Sys2Proof/Laws/Memory.lean ====
section
/-! SUPPORT. Laws of memory: what a read after a write gives, and that every memory operation keeps the canonical
form. -/

namespace Sys2Proof.Machine

theorem Memory.read_erase (m : Memory) (a b : Nat) :
    Memory.read (Memory.erase m a) b = if b = a then Config.unlistedByte else Memory.read m b := by
  induction m with
  | nil => simp [Memory.erase, Memory.read]
  | cons c rest ih =>
    obtain ⟨k, u⟩ := c
    simp only [Memory.erase]
    split
    · rw [ih, Memory.read]; grind
    · rw [Memory.read, ih, Memory.read]; grind

theorem Memory.read_set (m : Memory) (a b : Nat) (v : Byte) :
    Memory.read (Memory.set m a v) b = if b = a then v else Memory.read m b := by
  induction m with
  | nil => simp only [Memory.set, Memory.read, eq_comm]
  | cons c rest ih =>
    obtain ⟨k, u⟩ := c
    simp only [Memory.set]
    split
    · simp only [Memory.read]; grind
    · split
      · simp only [Memory.read]; grind
      · rw [Memory.read, ih, Memory.read]; grind

/-- A write sets the byte at its address and changes no other. -/
@[simp] theorem Memory.read_write (m : Memory) (a b : Nat) (v : Byte) :
    Memory.read (Memory.write m a v) b = if b = a then v else Memory.read m b := by
  unfold Memory.write
  split
  · rw [Memory.read_erase]; simp [*]
  · exact Memory.read_set m a b v

/-- The canonical form from an address up holds from every lower one up. -/
theorem Memory.wfFrom_mono {low low' : Nat} {m : Memory} (h : Memory.wfFrom low m = true) (hl : low' ≤ low) :
    Memory.wfFrom low' m = true := by
  cases m with
  | nil => rfl
  | cons c rest =>
    obtain ⟨b, v⟩ := c
    simp only [Memory.wfFrom, Bool.and_eq_true, decide_eq_true_eq] at h ⊢
    obtain ⟨⟨⟨hb, hn⟩, hv⟩, hr⟩ := h
    exact ⟨⟨⟨by omega, hn⟩, hv⟩, hr⟩

theorem Memory.wfFrom_cons {low b : Nat} {v : Byte} {rest : Memory} :
    Memory.wfFrom low ((b, v) :: rest) = true ↔
      low ≤ b ∧ b < 2 ^ 24 ∧ v ≠ Config.unlistedByte ∧ Memory.wfFrom (b + 1) rest = true := by
  simp only [Memory.wfFrom, Bool.and_eq_true, decide_eq_true_eq, and_assoc]

theorem Memory.wfFrom_erase {low a : Nat} {m : Memory} (h : Memory.wfFrom low m = true) :
    Memory.wfFrom low (Memory.erase m a) = true := by
  induction m generalizing low with
  | nil => rfl
  | cons c rest ih =>
    obtain ⟨b, u⟩ := c
    obtain ⟨hb, hn, hu, hr⟩ := Memory.wfFrom_cons.1 h
    simp only [Memory.erase]
    split
    · exact Memory.wfFrom_mono (ih hr) (by omega)
    · exact Memory.wfFrom_cons.2 ⟨hb, hn, hu, ih hr⟩

theorem Memory.wfFrom_set {low a : Nat} {v : Byte} {m : Memory} (hl : low ≤ a) (ha : a < 2 ^ 24)
    (hv : v ≠ Config.unlistedByte) (h : Memory.wfFrom low m = true) :
    Memory.wfFrom low (Memory.set m a v) = true := by
  induction m generalizing low with
  | nil => exact Memory.wfFrom_cons.2 ⟨hl, ha, hv, rfl⟩
  | cons c rest ih =>
    obtain ⟨b, u⟩ := c
    obtain ⟨hb, hn, hu, hr⟩ := Memory.wfFrom_cons.1 h
    simp only [Memory.set]
    split
    · exact Memory.wfFrom_cons.2 ⟨hl, ha, hv, Memory.wfFrom_cons.2 ⟨by omega, hn, hu, hr⟩⟩
    · split
      · subst b; exact Memory.wfFrom_cons.2 ⟨hl, ha, hv, hr⟩
      · exact Memory.wfFrom_cons.2 ⟨hb, hn, hu, ih (by omega) hr⟩

/-- A write keeps the canonical form. -/
theorem Memory.wf_write {m : Memory} {a : Nat} {v : Byte} (ha : a < 2 ^ 24) (h : Memory.wf m = true) :
    Memory.wf (Memory.write m a v) = true := by
  unfold Memory.write
  split
  · exact Memory.wfFrom_erase h
  · exact Memory.wfFrom_set (Nat.zero_le a) ha ‹_› h

/-- The memory that lists nothing, which is that of `State.reset`, is in canonical form. -/
theorem Memory.wf_nil : Memory.wf [] = true := rfl

end Sys2Proof.Machine
end

