-- ==== Sys2Proof/Laws/Flags.lean ====
section
/-! SUPPORT. Laws of P and of the ALU primitives of Machine/Flags.lean: what each flag write leaves in every flag. -/

namespace Sys2Proof.Machine

/-- One flag written: that flag holds the value, every other flag is kept. -/
@[simp] theorem flagOf_withFlag (p : Byte) (f g : Flag) (b : Bool) :
    flagOf (withFlag p f b) g = if g = f then b else flagOf p g := by
  cases b <;> cases f <;> cases g <;> simp [flagOf, withFlag, Flag.bit, Flag.mask]

/-- `setNZ` in every flag. -/
@[simp] theorem flagOf_setNZ (v : Word) (w : Width) (p : Byte) (g : Flag) :
    flagOf (setNZ v w p) g =
      if g = .n then v.getLsbD (w.bits - 1) else if g = .z then w.trunc v == 0 else flagOf p g := by
  simp [setNZ]

/-- `Cmp` in every flag. -/
@[simp] theorem flagOf_cmp (w : Width) (a b : Word) (p : Byte) (g : Flag) :
    flagOf (cmp w a b p) g =
      if g = .n then (w.trunc (a - b)).getLsbD (w.bits - 1) else if g = .z then a == b
      else if g = .c then decide (b.toNat ≤ a.toNat) else flagOf p g := by
  simp [cmp]

/-- The Z flag of `BitTest`, `Tsb` and `Trb`, in every flag. -/
@[simp] theorem flagOf_testZ (a m : Word) (p : Byte) (g : Flag) :
    flagOf (testZ a m p) g = if g = .z then a &&& m == 0 else flagOf p g := by
  simp [testZ]

/-- The N and V flags of `BitTest`, in every flag. -/
@[simp] theorem flagOf_testNV (w : Width) (m : Word) (p : Byte) (g : Flag) :
    flagOf (testNV w m p) g =
      if g = .v then m.getLsbD (w.bits - 2) else if g = .n then m.getLsbD (w.bits - 1) else flagOf p g := by
  simp [testNV]

/-- The flags of a shift, in every flag. -/
@[simp] theorem flagOf_shiftFlags (w : Width) (o : ShiftOut) (p : Byte) (g : Flag) :
    flagOf (shiftFlags w o p) g =
      if g = .n then o.result.getLsbD (w.bits - 1) else if g = .z then w.trunc o.result == 0
      else if g = .c then o.c else flagOf p g := by
  simp [shiftFlags]

/-- The flags of an addition or subtraction, in every flag. -/
@[simp] theorem flagOf_addFlags (w : Width) (o : AluOut) (p : Byte) (g : Flag) :
    flagOf (addFlags w o p) g =
      if g = .n then o.result.getLsbD (w.bits - 1) else if g = .z then w.trunc o.result == 0
      else if g = .v then o.v else if g = .c then o.c else flagOf p g := by
  simp [addFlags]

/-- Two status bytes with the same eight flags are equal. -/
theorem status_ext {p q : Byte} (h : ∀ f, flagOf p f = flagOf q f) : p = q := by
  have hn := h .n; have hv := h .v; have hm := h .m; have hx := h .x
  have hd := h .d; have hi := h .i; have hz := h .z; have hc := h .c
  simp only [flagOf, Flag.bit] at *
  apply BitVec.eq_of_getLsbD_eq
  intro i hlt
  match i, hlt with
  | 0, _ => exact hc
  | 1, _ => exact hz
  | 2, _ => exact hi
  | 3, _ => exact hd
  | 4, _ => exact hx
  | 5, _ => exact hm
  | 6, _ => exact hv
  | 7, _ => exact hn

/-- The sign bit at a width, as arithmetic. -/
theorem sign_eq (v : Word) (w : Width) :
    v.getLsbD (w.bits - 1) = decide (2 ^ (w.bits - 1) ≤ v.toNat % 2 ^ w.bits) := by
  have := v.isLt
  simp only [BitVec.getLsbD, Nat.testBit_eq_decide_div_mod_eq]
  rw [Bool.eq_iff_iff, decide_eq_true_iff, decide_eq_true_iff]
  cases w <;> simp only [Width.bits] <;> omega

/-- Z at a width, as arithmetic. -/
theorem zero_eq (v : Word) (w : Width) : (w.trunc v == 0) = decide (v.toNat % 2 ^ w.bits = 0) := by
  rw [beq_eq_decide, decide_eq_decide, ← trunc_toNat, ← BitVec.toNat_inj]; rfl

/-- The results of the primitives are cut to the width. -/
theorem addBin_result_lt (w : Width) (a b : Word) (c : Bool) : (addBin w a b c).result.toNat < 2 ^ w.bits := by
  simp only [addBin, trunc_toNat]; exact Nat.mod_lt _ (by cases w <;> decide)

theorem subBin_result_lt (w : Width) (a b : Word) (c : Bool) : (subBin w a b c).result.toNat < 2 ^ w.bits := by
  simp only [subBin, trunc_toNat]; exact Nat.mod_lt _ (by cases w <;> decide)

theorem addDec_result_lt (w : Width) (a b : Word) (c : Bool) : (addDec w a b c).result.toNat < 2 ^ w.bits := by
  simp only [addDec, trunc_toNat]; exact Nat.mod_lt _ (by cases w <;> decide)

theorem subDec_result_lt (w : Width) (a b : Word) (c : Bool) : (subDec w a b c).result.toNat < 2 ^ w.bits := by
  simp only [subDec, trunc_toNat]; exact Nat.mod_lt _ (by cases w <;> decide)

/-- `Asl` as arithmetic. -/
theorem asl_toNat (w : Width) (v : Word) : (asl w v).result.toNat = 2 * v.toNat % 2 ^ w.bits := by
  simp only [asl, trunc_toNat, BitVec.toNat_shiftLeft, Nat.shiftLeft_eq]
  cases w <;> simp only [Width.bits] <;> omega

/-- `Lsr` as arithmetic. -/
theorem lsr_toNat (v : Word) : (lsr v).result.toNat = v.toNat / 2 := by
  simp [lsr, Nat.shiftRight_eq_div_pow]

/-- `Inc` as arithmetic. -/
theorem inc_toNat (w : Width) (v : Word) : (inc w v).toNat = (v.toNat + 1) % 2 ^ w.bits := by
  have := v.isLt
  simp only [inc, trunc_toNat, BitVec.toNat_add]
  cases w <;> simp [Width.bits]

/-- `Dec` as arithmetic. -/
theorem dec_toNat (w : Width) (v : Word) : (dec w v).toNat = (v.toNat + 2 ^ w.bits - 1) % 2 ^ w.bits := by
  have := v.isLt
  simp only [dec, trunc_toNat, BitVec.toNat_sub]
  cases w <;> simp [Width.bits] <;> omega

end Sys2Proof.Machine
end

