-- ==== Sys2Proof/Laws/State.lean ====
section
/-! SUPPORT. What each named update of the state leaves in each field: true by definition, so that no proof
unfolds a record update. -/

namespace Sys2Proof.Machine

/-! ### `putFlag` -/

@[simp] theorem State.putFlag_c (s : State) (f : Flag) (b : Bool) : (s.putFlag f b).c = s.c := rfl
@[simp] theorem State.putFlag_x (s : State) (f : Flag) (b : Bool) : (s.putFlag f b).x = s.x := rfl
@[simp] theorem State.putFlag_y (s : State) (f : Flag) (b : Bool) : (s.putFlag f b).y = s.y := rfl
@[simp] theorem State.putFlag_sp (s : State) (f : Flag) (b : Bool) : (s.putFlag f b).sp = s.sp := rfl
@[simp] theorem State.putFlag_d (s : State) (f : Flag) (b : Bool) : (s.putFlag f b).d = s.d := rfl
@[simp] theorem State.putFlag_dbr (s : State) (f : Flag) (b : Bool) : (s.putFlag f b).dbr = s.dbr := rfl
@[simp] theorem State.putFlag_pbr (s : State) (f : Flag) (b : Bool) : (s.putFlag f b).pbr = s.pbr := rfl
@[simp] theorem State.putFlag_pc (s : State) (f : Flag) (b : Bool) : (s.putFlag f b).pc = s.pc := rfl
@[simp] theorem State.putFlag_p (s : State) (f : Flag) (b : Bool) : (s.putFlag f b).p = withFlag s.p f b := rfl
@[simp] theorem State.putFlag_e (s : State) (f : Flag) (b : Bool) : (s.putFlag f b).e = s.e := rfl
@[simp] theorem State.putFlag_run (s : State) (f : Flag) (b : Bool) : (s.putFlag f b).run = s.run := rfl
@[simp] theorem State.putFlag_cycles (s : State) (f : Flag) (b : Bool) : (s.putFlag f b).cycles = s.cycles := rfl
@[simp] theorem State.putFlag_mem (s : State) (f : Flag) (b : Bool) : (s.putFlag f b).mem = s.mem := rfl
@[simp] theorem State.putFlag_trace (s : State) (f : Flag) (b : Bool) : (s.putFlag f b).trace = s.trace := rfl
@[simp] theorem State.putFlag_diag (s : State) (f : Flag) (b : Bool) : (s.putFlag f b).diag = s.diag := rfl
@[simp] theorem State.putFlag_params (s : State) (f : Flag) (b : Bool) : (s.putFlag f b).params = s.params := rfl
@[simp] theorem State.putFlag_oracleAt (s : State) (f : Flag) (b : Bool) (q : Addr) : (s.putFlag f b).oracleAt q = s.oracleAt q := rfl

/-! ### `putNZ` -/

@[simp] theorem State.putNZ_c (s : State) (v : Word) (w : Width) : (s.putNZ v w).c = s.c := rfl
@[simp] theorem State.putNZ_x (s : State) (v : Word) (w : Width) : (s.putNZ v w).x = s.x := rfl
@[simp] theorem State.putNZ_y (s : State) (v : Word) (w : Width) : (s.putNZ v w).y = s.y := rfl
@[simp] theorem State.putNZ_sp (s : State) (v : Word) (w : Width) : (s.putNZ v w).sp = s.sp := rfl
@[simp] theorem State.putNZ_d (s : State) (v : Word) (w : Width) : (s.putNZ v w).d = s.d := rfl
@[simp] theorem State.putNZ_dbr (s : State) (v : Word) (w : Width) : (s.putNZ v w).dbr = s.dbr := rfl
@[simp] theorem State.putNZ_pbr (s : State) (v : Word) (w : Width) : (s.putNZ v w).pbr = s.pbr := rfl
@[simp] theorem State.putNZ_pc (s : State) (v : Word) (w : Width) : (s.putNZ v w).pc = s.pc := rfl
@[simp] theorem State.putNZ_p (s : State) (v : Word) (w : Width) : (s.putNZ v w).p = setNZ v w s.p := rfl
@[simp] theorem State.putNZ_e (s : State) (v : Word) (w : Width) : (s.putNZ v w).e = s.e := rfl
@[simp] theorem State.putNZ_run (s : State) (v : Word) (w : Width) : (s.putNZ v w).run = s.run := rfl
@[simp] theorem State.putNZ_cycles (s : State) (v : Word) (w : Width) : (s.putNZ v w).cycles = s.cycles := rfl
@[simp] theorem State.putNZ_mem (s : State) (v : Word) (w : Width) : (s.putNZ v w).mem = s.mem := rfl
@[simp] theorem State.putNZ_trace (s : State) (v : Word) (w : Width) : (s.putNZ v w).trace = s.trace := rfl
@[simp] theorem State.putNZ_diag (s : State) (v : Word) (w : Width) : (s.putNZ v w).diag = s.diag := rfl
@[simp] theorem State.putNZ_params (s : State) (v : Word) (w : Width) : (s.putNZ v w).params = s.params := rfl
@[simp] theorem State.putNZ_oracleAt (s : State) (v : Word) (w : Width) (q : Addr) : (s.putNZ v w).oracleAt q = s.oracleAt q := rfl

/-! ### `writeA` -/

@[simp] theorem State.writeA_c (s : State) (v : Word) : (s.writeA v).c = if s.flag .m then word (hi s.c) (lo v) else v := rfl
@[simp] theorem State.writeA_x (s : State) (v : Word) : (s.writeA v).x = s.x := rfl
@[simp] theorem State.writeA_y (s : State) (v : Word) : (s.writeA v).y = s.y := rfl
@[simp] theorem State.writeA_sp (s : State) (v : Word) : (s.writeA v).sp = s.sp := rfl
@[simp] theorem State.writeA_d (s : State) (v : Word) : (s.writeA v).d = s.d := rfl
@[simp] theorem State.writeA_dbr (s : State) (v : Word) : (s.writeA v).dbr = s.dbr := rfl
@[simp] theorem State.writeA_pbr (s : State) (v : Word) : (s.writeA v).pbr = s.pbr := rfl
@[simp] theorem State.writeA_pc (s : State) (v : Word) : (s.writeA v).pc = s.pc := rfl
@[simp] theorem State.writeA_p (s : State) (v : Word) : (s.writeA v).p = s.p := rfl
@[simp] theorem State.writeA_e (s : State) (v : Word) : (s.writeA v).e = s.e := rfl
@[simp] theorem State.writeA_run (s : State) (v : Word) : (s.writeA v).run = s.run := rfl
@[simp] theorem State.writeA_cycles (s : State) (v : Word) : (s.writeA v).cycles = s.cycles := rfl
@[simp] theorem State.writeA_mem (s : State) (v : Word) : (s.writeA v).mem = s.mem := rfl
@[simp] theorem State.writeA_trace (s : State) (v : Word) : (s.writeA v).trace = s.trace := rfl
@[simp] theorem State.writeA_diag (s : State) (v : Word) : (s.writeA v).diag = s.diag := rfl
@[simp] theorem State.writeA_params (s : State) (v : Word) : (s.writeA v).params = s.params := rfl
@[simp] theorem State.writeA_flag (s : State) (v : Word) (g : Flag) : (s.writeA v).flag g = s.flag g := rfl
@[simp] theorem State.writeA_wA (s : State) (v : Word) : (s.writeA v).wA = s.wA := rfl
@[simp] theorem State.writeA_wX (s : State) (v : Word) : (s.writeA v).wX = s.wX := rfl
@[simp] theorem State.writeA_oracleAt (s : State) (v : Word) (q : Addr) : (s.writeA v).oracleAt q = s.oracleAt q := rfl

/-! ### `writeX` -/

@[simp] theorem State.writeX_c (s : State) (v : Word) : (s.writeX v).c = s.c := rfl
@[simp] theorem State.writeX_x (s : State) (v : Word) : (s.writeX v).x = s.indexWrite s.x v := rfl
@[simp] theorem State.writeX_y (s : State) (v : Word) : (s.writeX v).y = s.y := rfl
@[simp] theorem State.writeX_sp (s : State) (v : Word) : (s.writeX v).sp = s.sp := rfl
@[simp] theorem State.writeX_d (s : State) (v : Word) : (s.writeX v).d = s.d := rfl
@[simp] theorem State.writeX_dbr (s : State) (v : Word) : (s.writeX v).dbr = s.dbr := rfl
@[simp] theorem State.writeX_pbr (s : State) (v : Word) : (s.writeX v).pbr = s.pbr := rfl
@[simp] theorem State.writeX_pc (s : State) (v : Word) : (s.writeX v).pc = s.pc := rfl
@[simp] theorem State.writeX_p (s : State) (v : Word) : (s.writeX v).p = s.p := rfl
@[simp] theorem State.writeX_e (s : State) (v : Word) : (s.writeX v).e = s.e := rfl
@[simp] theorem State.writeX_run (s : State) (v : Word) : (s.writeX v).run = s.run := rfl
@[simp] theorem State.writeX_cycles (s : State) (v : Word) : (s.writeX v).cycles = s.cycles := rfl
@[simp] theorem State.writeX_mem (s : State) (v : Word) : (s.writeX v).mem = s.mem := rfl
@[simp] theorem State.writeX_trace (s : State) (v : Word) : (s.writeX v).trace = s.trace := rfl
@[simp] theorem State.writeX_diag (s : State) (v : Word) : (s.writeX v).diag = s.diag := rfl
@[simp] theorem State.writeX_params (s : State) (v : Word) : (s.writeX v).params = s.params := rfl
@[simp] theorem State.writeX_flag (s : State) (v : Word) (g : Flag) : (s.writeX v).flag g = s.flag g := rfl
@[simp] theorem State.writeX_wA (s : State) (v : Word) : (s.writeX v).wA = s.wA := rfl
@[simp] theorem State.writeX_wX (s : State) (v : Word) : (s.writeX v).wX = s.wX := rfl
@[simp] theorem State.writeX_oracleAt (s : State) (v : Word) (q : Addr) : (s.writeX v).oracleAt q = s.oracleAt q := rfl

/-! ### `writeY` -/

@[simp] theorem State.writeY_c (s : State) (v : Word) : (s.writeY v).c = s.c := rfl
@[simp] theorem State.writeY_x (s : State) (v : Word) : (s.writeY v).x = s.x := rfl
@[simp] theorem State.writeY_y (s : State) (v : Word) : (s.writeY v).y = s.indexWrite s.y v := rfl
@[simp] theorem State.writeY_sp (s : State) (v : Word) : (s.writeY v).sp = s.sp := rfl
@[simp] theorem State.writeY_d (s : State) (v : Word) : (s.writeY v).d = s.d := rfl
@[simp] theorem State.writeY_dbr (s : State) (v : Word) : (s.writeY v).dbr = s.dbr := rfl
@[simp] theorem State.writeY_pbr (s : State) (v : Word) : (s.writeY v).pbr = s.pbr := rfl
@[simp] theorem State.writeY_pc (s : State) (v : Word) : (s.writeY v).pc = s.pc := rfl
@[simp] theorem State.writeY_p (s : State) (v : Word) : (s.writeY v).p = s.p := rfl
@[simp] theorem State.writeY_e (s : State) (v : Word) : (s.writeY v).e = s.e := rfl
@[simp] theorem State.writeY_run (s : State) (v : Word) : (s.writeY v).run = s.run := rfl
@[simp] theorem State.writeY_cycles (s : State) (v : Word) : (s.writeY v).cycles = s.cycles := rfl
@[simp] theorem State.writeY_mem (s : State) (v : Word) : (s.writeY v).mem = s.mem := rfl
@[simp] theorem State.writeY_trace (s : State) (v : Word) : (s.writeY v).trace = s.trace := rfl
@[simp] theorem State.writeY_diag (s : State) (v : Word) : (s.writeY v).diag = s.diag := rfl
@[simp] theorem State.writeY_params (s : State) (v : Word) : (s.writeY v).params = s.params := rfl
@[simp] theorem State.writeY_flag (s : State) (v : Word) (g : Flag) : (s.writeY v).flag g = s.flag g := rfl
@[simp] theorem State.writeY_wA (s : State) (v : Word) : (s.writeY v).wA = s.wA := rfl
@[simp] theorem State.writeY_wX (s : State) (v : Word) : (s.writeY v).wX = s.wX := rfl
@[simp] theorem State.writeY_oracleAt (s : State) (v : Word) (q : Addr) : (s.writeY v).oracleAt q = s.oracleAt q := rfl

/-! ### `writeS` -/

@[simp] theorem State.writeS_c (s : State) (v : Word) : (s.writeS v).c = s.c := rfl
@[simp] theorem State.writeS_x (s : State) (v : Word) : (s.writeS v).x = s.x := rfl
@[simp] theorem State.writeS_y (s : State) (v : Word) : (s.writeS v).y = s.y := rfl
@[simp] theorem State.writeS_sp (s : State) (v : Word) : (s.writeS v).sp = if s.e then word 0x01 (lo v) else v := rfl
@[simp] theorem State.writeS_d (s : State) (v : Word) : (s.writeS v).d = s.d := rfl
@[simp] theorem State.writeS_dbr (s : State) (v : Word) : (s.writeS v).dbr = s.dbr := rfl
@[simp] theorem State.writeS_pbr (s : State) (v : Word) : (s.writeS v).pbr = s.pbr := rfl
@[simp] theorem State.writeS_pc (s : State) (v : Word) : (s.writeS v).pc = s.pc := rfl
@[simp] theorem State.writeS_p (s : State) (v : Word) : (s.writeS v).p = s.p := rfl
@[simp] theorem State.writeS_e (s : State) (v : Word) : (s.writeS v).e = s.e := rfl
@[simp] theorem State.writeS_run (s : State) (v : Word) : (s.writeS v).run = s.run := rfl
@[simp] theorem State.writeS_cycles (s : State) (v : Word) : (s.writeS v).cycles = s.cycles := rfl
@[simp] theorem State.writeS_mem (s : State) (v : Word) : (s.writeS v).mem = s.mem := rfl
@[simp] theorem State.writeS_trace (s : State) (v : Word) : (s.writeS v).trace = s.trace := rfl
@[simp] theorem State.writeS_diag (s : State) (v : Word) : (s.writeS v).diag = s.diag := rfl
@[simp] theorem State.writeS_params (s : State) (v : Word) : (s.writeS v).params = s.params := rfl
@[simp] theorem State.writeS_flag (s : State) (v : Word) (g : Flag) : (s.writeS v).flag g = s.flag g := rfl
@[simp] theorem State.writeS_wA (s : State) (v : Word) : (s.writeS v).wA = s.wA := rfl
@[simp] theorem State.writeS_wX (s : State) (v : Word) : (s.writeS v).wX = s.wX := rfl
@[simp] theorem State.writeS_oracleAt (s : State) (v : Word) (q : Addr) : (s.writeS v).oracleAt q = s.oracleAt q := rfl

/-! ### `charge` -/

@[simp] theorem State.charge_c (s : State) (n : Nat) : (s.charge n).c = s.c := rfl
@[simp] theorem State.charge_x (s : State) (n : Nat) : (s.charge n).x = s.x := rfl
@[simp] theorem State.charge_y (s : State) (n : Nat) : (s.charge n).y = s.y := rfl
@[simp] theorem State.charge_sp (s : State) (n : Nat) : (s.charge n).sp = s.sp := rfl
@[simp] theorem State.charge_d (s : State) (n : Nat) : (s.charge n).d = s.d := rfl
@[simp] theorem State.charge_dbr (s : State) (n : Nat) : (s.charge n).dbr = s.dbr := rfl
@[simp] theorem State.charge_pbr (s : State) (n : Nat) : (s.charge n).pbr = s.pbr := rfl
@[simp] theorem State.charge_pc (s : State) (n : Nat) : (s.charge n).pc = s.pc := rfl
@[simp] theorem State.charge_p (s : State) (n : Nat) : (s.charge n).p = s.p := rfl
@[simp] theorem State.charge_e (s : State) (n : Nat) : (s.charge n).e = s.e := rfl
@[simp] theorem State.charge_run (s : State) (n : Nat) : (s.charge n).run = s.run := rfl
@[simp] theorem State.charge_cycles (s : State) (n : Nat) : (s.charge n).cycles = s.cycles + BitVec.ofNat 64 n := rfl
@[simp] theorem State.charge_mem (s : State) (n : Nat) : (s.charge n).mem = s.mem := rfl
@[simp] theorem State.charge_trace (s : State) (n : Nat) : (s.charge n).trace = s.trace := rfl
@[simp] theorem State.charge_diag (s : State) (n : Nat) : (s.charge n).diag = s.diag := rfl
@[simp] theorem State.charge_params (s : State) (n : Nat) : (s.charge n).params = s.params := rfl
@[simp] theorem State.charge_flag (s : State) (n : Nat) (g : Flag) : (s.charge n).flag g = s.flag g := rfl
@[simp] theorem State.charge_wA (s : State) (n : Nat) : (s.charge n).wA = s.wA := rfl
@[simp] theorem State.charge_wX (s : State) (n : Nat) : (s.charge n).wX = s.wX := rfl
@[simp] theorem State.charge_oracleAt (s : State) (n : Nat) (q : Addr) : (s.charge n).oracleAt q = s.oracleAt q := rfl

/-! ### `record` -/

@[simp] theorem State.record_c (s : State) (ev : BusEvent) : (s.record ev).c = s.c := rfl
@[simp] theorem State.record_x (s : State) (ev : BusEvent) : (s.record ev).x = s.x := rfl
@[simp] theorem State.record_y (s : State) (ev : BusEvent) : (s.record ev).y = s.y := rfl
@[simp] theorem State.record_sp (s : State) (ev : BusEvent) : (s.record ev).sp = s.sp := rfl
@[simp] theorem State.record_d (s : State) (ev : BusEvent) : (s.record ev).d = s.d := rfl
@[simp] theorem State.record_dbr (s : State) (ev : BusEvent) : (s.record ev).dbr = s.dbr := rfl
@[simp] theorem State.record_pbr (s : State) (ev : BusEvent) : (s.record ev).pbr = s.pbr := rfl
@[simp] theorem State.record_pc (s : State) (ev : BusEvent) : (s.record ev).pc = s.pc := rfl
@[simp] theorem State.record_p (s : State) (ev : BusEvent) : (s.record ev).p = s.p := rfl
@[simp] theorem State.record_e (s : State) (ev : BusEvent) : (s.record ev).e = s.e := rfl
@[simp] theorem State.record_run (s : State) (ev : BusEvent) : (s.record ev).run = s.run := rfl
@[simp] theorem State.record_cycles (s : State) (ev : BusEvent) : (s.record ev).cycles = s.cycles := rfl
@[simp] theorem State.record_mem (s : State) (ev : BusEvent) : (s.record ev).mem = s.mem := rfl
@[simp] theorem State.record_trace (s : State) (ev : BusEvent) : (s.record ev).trace = s.trace ++ [ev] := rfl
@[simp] theorem State.record_diag (s : State) (ev : BusEvent) : (s.record ev).diag = s.diag := rfl
@[simp] theorem State.record_params (s : State) (ev : BusEvent) : (s.record ev).params = s.params := rfl
@[simp] theorem State.record_flag (s : State) (ev : BusEvent) (g : Flag) : (s.record ev).flag g = s.flag g := rfl
@[simp] theorem State.record_wA (s : State) (ev : BusEvent) : (s.record ev).wA = s.wA := rfl
@[simp] theorem State.record_wX (s : State) (ev : BusEvent) : (s.record ev).wX = s.wX := rfl
@[simp] theorem State.record_oracleAt (s : State) (ev : BusEvent) (q : Addr) : (s.record ev).oracleAt q = s.oracleAt q := rfl

/-! ### `memRead` -/

@[simp] theorem State.memRead_c (s : State) (a : Addr) : ((s.memRead a).2).c = s.c := rfl
@[simp] theorem State.memRead_x (s : State) (a : Addr) : ((s.memRead a).2).x = s.x := rfl
@[simp] theorem State.memRead_y (s : State) (a : Addr) : ((s.memRead a).2).y = s.y := rfl
@[simp] theorem State.memRead_sp (s : State) (a : Addr) : ((s.memRead a).2).sp = s.sp := rfl
@[simp] theorem State.memRead_d (s : State) (a : Addr) : ((s.memRead a).2).d = s.d := rfl
@[simp] theorem State.memRead_dbr (s : State) (a : Addr) : ((s.memRead a).2).dbr = s.dbr := rfl
@[simp] theorem State.memRead_pbr (s : State) (a : Addr) : ((s.memRead a).2).pbr = s.pbr := rfl
@[simp] theorem State.memRead_pc (s : State) (a : Addr) : ((s.memRead a).2).pc = s.pc := rfl
@[simp] theorem State.memRead_p (s : State) (a : Addr) : ((s.memRead a).2).p = s.p := rfl
@[simp] theorem State.memRead_e (s : State) (a : Addr) : ((s.memRead a).2).e = s.e := rfl
@[simp] theorem State.memRead_run (s : State) (a : Addr) : ((s.memRead a).2).run = s.run := rfl
@[simp] theorem State.memRead_cycles (s : State) (a : Addr) : ((s.memRead a).2).cycles = s.cycles := rfl
@[simp] theorem State.memRead_mem (s : State) (a : Addr) : ((s.memRead a).2).mem = s.mem := rfl
@[simp] theorem State.memRead_trace (s : State) (a : Addr) : ((s.memRead a).2).trace = s.trace ++ [.read a (s.answer a)] := rfl
@[simp] theorem State.memRead_diag (s : State) (a : Addr) : ((s.memRead a).2).diag = s.diag := rfl
@[simp] theorem State.memRead_params (s : State) (a : Addr) : ((s.memRead a).2).params = s.params := rfl
@[simp] theorem State.memRead_flag (s : State) (a : Addr) (g : Flag) : ((s.memRead a).2).flag g = s.flag g := rfl
@[simp] theorem State.memRead_wA (s : State) (a : Addr) : ((s.memRead a).2).wA = s.wA := rfl
@[simp] theorem State.memRead_wX (s : State) (a : Addr) : ((s.memRead a).2).wX = s.wX := rfl
@[simp] theorem State.memRead_oracleAt (s : State) (a : Addr) (q : Addr) : ((s.memRead a).2).oracleAt q = s.oracleAt q := rfl

/-! ### `memWrite` -/

@[simp] theorem State.memWrite_c (s : State) (a : Addr) (v : Byte) : (s.memWrite a v).c = s.c := rfl
@[simp] theorem State.memWrite_x (s : State) (a : Addr) (v : Byte) : (s.memWrite a v).x = s.x := rfl
@[simp] theorem State.memWrite_y (s : State) (a : Addr) (v : Byte) : (s.memWrite a v).y = s.y := rfl
@[simp] theorem State.memWrite_sp (s : State) (a : Addr) (v : Byte) : (s.memWrite a v).sp = s.sp := rfl
@[simp] theorem State.memWrite_d (s : State) (a : Addr) (v : Byte) : (s.memWrite a v).d = s.d := rfl
@[simp] theorem State.memWrite_dbr (s : State) (a : Addr) (v : Byte) : (s.memWrite a v).dbr = s.dbr := rfl
@[simp] theorem State.memWrite_pbr (s : State) (a : Addr) (v : Byte) : (s.memWrite a v).pbr = s.pbr := rfl
@[simp] theorem State.memWrite_pc (s : State) (a : Addr) (v : Byte) : (s.memWrite a v).pc = s.pc := rfl
@[simp] theorem State.memWrite_p (s : State) (a : Addr) (v : Byte) : (s.memWrite a v).p = s.p := rfl
@[simp] theorem State.memWrite_e (s : State) (a : Addr) (v : Byte) : (s.memWrite a v).e = s.e := rfl
@[simp] theorem State.memWrite_run (s : State) (a : Addr) (v : Byte) : (s.memWrite a v).run = s.run := rfl
@[simp] theorem State.memWrite_cycles (s : State) (a : Addr) (v : Byte) : (s.memWrite a v).cycles = s.cycles := rfl
@[simp] theorem State.memWrite_mem (s : State) (a : Addr) (v : Byte) : (s.memWrite a v).mem = Memory.write s.mem a.toNat v := rfl
@[simp] theorem State.memWrite_trace (s : State) (a : Addr) (v : Byte) : (s.memWrite a v).trace = s.trace ++ [.write a v] := rfl
@[simp] theorem State.memWrite_diag (s : State) (a : Addr) (v : Byte) : (s.memWrite a v).diag = s.diag := rfl
@[simp] theorem State.memWrite_params (s : State) (a : Addr) (v : Byte) : (s.memWrite a v).params = s.params := rfl
@[simp] theorem State.memWrite_flag (s : State) (a : Addr) (v : Byte) (g : Flag) : (s.memWrite a v).flag g = s.flag g := rfl
@[simp] theorem State.memWrite_wA (s : State) (a : Addr) (v : Byte) : (s.memWrite a v).wA = s.wA := rfl
@[simp] theorem State.memWrite_wX (s : State) (a : Addr) (v : Byte) : (s.memWrite a v).wX = s.wX := rfl
@[simp] theorem State.memWrite_oracleAt (s : State) (a : Addr) (v : Byte) (q : Addr) : (s.memWrite a v).oracleAt q = s.oracleAt q := rfl

/-! ### `push8` -/

@[simp] theorem State.push8_c (s : State) (v : Byte) : (s.push8 v).c = s.c := rfl
@[simp] theorem State.push8_x (s : State) (v : Byte) : (s.push8 v).x = s.x := rfl
@[simp] theorem State.push8_y (s : State) (v : Byte) : (s.push8 v).y = s.y := rfl
@[simp] theorem State.push8_sp (s : State) (v : Byte) : (s.push8 v).sp = s.spDown := rfl
@[simp] theorem State.push8_d (s : State) (v : Byte) : (s.push8 v).d = s.d := rfl
@[simp] theorem State.push8_dbr (s : State) (v : Byte) : (s.push8 v).dbr = s.dbr := rfl
@[simp] theorem State.push8_pbr (s : State) (v : Byte) : (s.push8 v).pbr = s.pbr := rfl
@[simp] theorem State.push8_pc (s : State) (v : Byte) : (s.push8 v).pc = s.pc := rfl
@[simp] theorem State.push8_p (s : State) (v : Byte) : (s.push8 v).p = s.p := rfl
@[simp] theorem State.push8_e (s : State) (v : Byte) : (s.push8 v).e = s.e := rfl
@[simp] theorem State.push8_run (s : State) (v : Byte) : (s.push8 v).run = s.run := rfl
@[simp] theorem State.push8_cycles (s : State) (v : Byte) : (s.push8 v).cycles = s.cycles := rfl
@[simp] theorem State.push8_mem (s : State) (v : Byte) : (s.push8 v).mem = Memory.write s.mem (addrOf 0x00 s.sp).toNat v := rfl
@[simp] theorem State.push8_trace (s : State) (v : Byte) : (s.push8 v).trace = s.trace ++ [.write (addrOf 0x00 s.sp) v] := rfl
@[simp] theorem State.push8_diag (s : State) (v : Byte) : (s.push8 v).diag = s.diag := rfl
@[simp] theorem State.push8_params (s : State) (v : Byte) : (s.push8 v).params = s.params := rfl
@[simp] theorem State.push8_flag (s : State) (v : Byte) (g : Flag) : (s.push8 v).flag g = s.flag g := rfl
@[simp] theorem State.push8_wA (s : State) (v : Byte) : (s.push8 v).wA = s.wA := rfl
@[simp] theorem State.push8_wX (s : State) (v : Byte) : (s.push8 v).wX = s.wX := rfl
@[simp] theorem State.push8_oracleAt (s : State) (v : Byte) (q : Addr) : (s.push8 v).oracleAt q = s.oracleAt q := rfl

/-! ### `pull8` -/

@[simp] theorem State.pull8_c (s : State) : (s.pull8.2).c = s.c := rfl
@[simp] theorem State.pull8_x (s : State) : (s.pull8.2).x = s.x := rfl
@[simp] theorem State.pull8_y (s : State) : (s.pull8.2).y = s.y := rfl
@[simp] theorem State.pull8_sp (s : State) : (s.pull8.2).sp = s.spUp := rfl
@[simp] theorem State.pull8_d (s : State) : (s.pull8.2).d = s.d := rfl
@[simp] theorem State.pull8_dbr (s : State) : (s.pull8.2).dbr = s.dbr := rfl
@[simp] theorem State.pull8_pbr (s : State) : (s.pull8.2).pbr = s.pbr := rfl
@[simp] theorem State.pull8_pc (s : State) : (s.pull8.2).pc = s.pc := rfl
@[simp] theorem State.pull8_p (s : State) : (s.pull8.2).p = s.p := rfl
@[simp] theorem State.pull8_e (s : State) : (s.pull8.2).e = s.e := rfl
@[simp] theorem State.pull8_run (s : State) : (s.pull8.2).run = s.run := rfl
@[simp] theorem State.pull8_cycles (s : State) : (s.pull8.2).cycles = s.cycles := rfl
@[simp] theorem State.pull8_mem (s : State) : (s.pull8.2).mem = s.mem := rfl
@[simp] theorem State.pull8_trace (s : State) : (s.pull8.2).trace = s.trace ++ [.read (addrOf 0x00 s.spUp) (s.answer (addrOf 0x00 s.spUp))] := rfl
@[simp] theorem State.pull8_diag (s : State) : (s.pull8.2).diag = s.diag := rfl
@[simp] theorem State.pull8_params (s : State) : (s.pull8.2).params = s.params := rfl
@[simp] theorem State.pull8_flag (s : State) (g : Flag) : (s.pull8.2).flag g = s.flag g := rfl
@[simp] theorem State.pull8_wA (s : State) : (s.pull8.2).wA = s.wA := rfl
@[simp] theorem State.pull8_wX (s : State) : (s.pull8.2).wX = s.wX := rfl
@[simp] theorem State.pull8_oracleAt (s : State) (q : Addr) : (s.pull8.2).oracleAt q = s.oracleAt q := rfl

/-! ### `fetch8` -/

@[simp] theorem State.fetch8_c (s : State) : (s.fetch8.2).c = s.c := rfl
@[simp] theorem State.fetch8_x (s : State) : (s.fetch8.2).x = s.x := rfl
@[simp] theorem State.fetch8_y (s : State) : (s.fetch8.2).y = s.y := rfl
@[simp] theorem State.fetch8_sp (s : State) : (s.fetch8.2).sp = s.sp := rfl
@[simp] theorem State.fetch8_d (s : State) : (s.fetch8.2).d = s.d := rfl
@[simp] theorem State.fetch8_dbr (s : State) : (s.fetch8.2).dbr = s.dbr := rfl
@[simp] theorem State.fetch8_pbr (s : State) : (s.fetch8.2).pbr = s.pbr := rfl
@[simp] theorem State.fetch8_pc (s : State) : (s.fetch8.2).pc = s.pc + 1 := rfl
@[simp] theorem State.fetch8_p (s : State) : (s.fetch8.2).p = s.p := rfl
@[simp] theorem State.fetch8_e (s : State) : (s.fetch8.2).e = s.e := rfl
@[simp] theorem State.fetch8_run (s : State) : (s.fetch8.2).run = s.run := rfl
@[simp] theorem State.fetch8_cycles (s : State) : (s.fetch8.2).cycles = s.cycles := rfl
@[simp] theorem State.fetch8_mem (s : State) : (s.fetch8.2).mem = s.mem := rfl
@[simp] theorem State.fetch8_trace (s : State) : (s.fetch8.2).trace = s.trace ++ [.read (addrOf s.pbr s.pc) (s.answer (addrOf s.pbr s.pc))] := rfl
@[simp] theorem State.fetch8_diag (s : State) : (s.fetch8.2).diag = s.diag := rfl
@[simp] theorem State.fetch8_params (s : State) : (s.fetch8.2).params = s.params := rfl
@[simp] theorem State.fetch8_flag (s : State) (g : Flag) : (s.fetch8.2).flag g = s.flag g := rfl
@[simp] theorem State.fetch8_wA (s : State) : (s.fetch8.2).wA = s.wA := rfl
@[simp] theorem State.fetch8_wX (s : State) : (s.fetch8.2).wX = s.wX := rfl
@[simp] theorem State.fetch8_oracleAt (s : State) (q : Addr) : (s.fetch8.2).oracleAt q = s.oracleAt q := rfl

/-! ### `jumpLong` -/

@[simp] theorem State.jumpLong_c (s : State) (t : Addr) : (s.jumpLong t).c = s.c := rfl
@[simp] theorem State.jumpLong_x (s : State) (t : Addr) : (s.jumpLong t).x = s.x := rfl
@[simp] theorem State.jumpLong_y (s : State) (t : Addr) : (s.jumpLong t).y = s.y := rfl
@[simp] theorem State.jumpLong_sp (s : State) (t : Addr) : (s.jumpLong t).sp = s.sp := rfl
@[simp] theorem State.jumpLong_d (s : State) (t : Addr) : (s.jumpLong t).d = s.d := rfl
@[simp] theorem State.jumpLong_dbr (s : State) (t : Addr) : (s.jumpLong t).dbr = s.dbr := rfl
@[simp] theorem State.jumpLong_pbr (s : State) (t : Addr) : (s.jumpLong t).pbr = alBank t := rfl
@[simp] theorem State.jumpLong_pc (s : State) (t : Addr) : (s.jumpLong t).pc = alOffset t := rfl
@[simp] theorem State.jumpLong_p (s : State) (t : Addr) : (s.jumpLong t).p = s.p := rfl
@[simp] theorem State.jumpLong_e (s : State) (t : Addr) : (s.jumpLong t).e = s.e := rfl
@[simp] theorem State.jumpLong_run (s : State) (t : Addr) : (s.jumpLong t).run = s.run := rfl
@[simp] theorem State.jumpLong_cycles (s : State) (t : Addr) : (s.jumpLong t).cycles = s.cycles := rfl
@[simp] theorem State.jumpLong_mem (s : State) (t : Addr) : (s.jumpLong t).mem = s.mem := rfl
@[simp] theorem State.jumpLong_trace (s : State) (t : Addr) : (s.jumpLong t).trace = s.trace := rfl
@[simp] theorem State.jumpLong_diag (s : State) (t : Addr) : (s.jumpLong t).diag = s.diag := rfl
@[simp] theorem State.jumpLong_params (s : State) (t : Addr) : (s.jumpLong t).params = s.params := rfl
@[simp] theorem State.jumpLong_flag (s : State) (t : Addr) (g : Flag) : (s.jumpLong t).flag g = s.flag g := rfl
@[simp] theorem State.jumpLong_wA (s : State) (t : Addr) : (s.jumpLong t).wA = s.wA := rfl
@[simp] theorem State.jumpLong_wX (s : State) (t : Addr) : (s.jumpLong t).wX = s.wX := rfl
@[simp] theorem State.jumpLong_oracleAt (s : State) (t : Addr) (q : Addr) : (s.jumpLong t).oracleAt q = s.oracleAt q := rfl

/-! ### `enterEmulation` -/

@[simp] theorem State.enterEmulation_c (s : State) : (s.enterEmulation).c = s.c := rfl
@[simp] theorem State.enterEmulation_x (s : State) : (s.enterEmulation).x = zext (lo s.x) := rfl
@[simp] theorem State.enterEmulation_y (s : State) : (s.enterEmulation).y = zext (lo s.y) := rfl
@[simp] theorem State.enterEmulation_sp (s : State) : (s.enterEmulation).sp = word 0x01 (lo s.sp) := rfl
@[simp] theorem State.enterEmulation_d (s : State) : (s.enterEmulation).d = s.d := rfl
@[simp] theorem State.enterEmulation_dbr (s : State) : (s.enterEmulation).dbr = s.dbr := rfl
@[simp] theorem State.enterEmulation_pbr (s : State) : (s.enterEmulation).pbr = s.pbr := rfl
@[simp] theorem State.enterEmulation_pc (s : State) : (s.enterEmulation).pc = s.pc := rfl
@[simp] theorem State.enterEmulation_p (s : State) : (s.enterEmulation).p = withFlag (withFlag s.p .m true) .x true := rfl
@[simp] theorem State.enterEmulation_e (s : State) : (s.enterEmulation).e = s.e := rfl
@[simp] theorem State.enterEmulation_run (s : State) : (s.enterEmulation).run = s.run := rfl
@[simp] theorem State.enterEmulation_cycles (s : State) : (s.enterEmulation).cycles = s.cycles := rfl
@[simp] theorem State.enterEmulation_mem (s : State) : (s.enterEmulation).mem = s.mem := rfl
@[simp] theorem State.enterEmulation_trace (s : State) : (s.enterEmulation).trace = s.trace := rfl
@[simp] theorem State.enterEmulation_diag (s : State) : (s.enterEmulation).diag = s.diag := rfl
@[simp] theorem State.enterEmulation_params (s : State) : (s.enterEmulation).params = s.params := rfl
@[simp] theorem State.enterEmulation_oracleAt (s : State) (q : Addr) : (s.enterEmulation).oracleAt q = s.oracleAt q := rfl

/-! ### The bytes read -/

@[simp] theorem State.memRead_fst (s : State) (a : Addr) : (s.memRead a).1 = s.answer a := rfl
@[simp] theorem State.pull8_fst (s : State) : s.pull8.1 = s.answer (addrOf 0x00 s.spUp) := rfl
@[simp] theorem State.fetch8_fst (s : State) : s.fetch8.1 = s.answer (addrOf s.pbr s.pc) := rfl

/-! ### `setP` -/

/-- Whether `setP(v)` clears the index high bytes (R43). -/
abbrev State.setPClears (s : State) (v : Byte) : Bool :=
  flagOf (if s.e then v ||| 0x30 else v) .x && s.params.indexNarrow == .zero

/-- All that `setP` can do (R43). -/
theorem State.setP_eq (s : State) (v : Byte) :
    s.setP v = { s with
      p := if s.e then v ||| 0x30 else v
      x := if s.setPClears v then zext (lo s.x) else s.x
      y := if s.setPClears v then zext (lo s.y) else s.y } := by
  unfold State.setP State.setPClears
  dsimp only [State.flag]
  generalize (if s.e = true then v ||| 0x30 else v) = q
  by_cases h : (flagOf q .x && s.params.indexNarrow == .zero) = true
  · simp only [h, if_true]
  · simp only [h, if_false, Bool.false_eq_true]

@[simp] theorem State.setP_p (s : State) (v : Byte) : (s.setP v).p = if s.e then v ||| 0x30 else v := by
  rw [State.setP_eq]
@[simp] theorem State.setP_x (s : State) (v : Byte) :
    (s.setP v).x = if s.setPClears v then zext (lo s.x) else s.x := by rw [State.setP_eq]
@[simp] theorem State.setP_y (s : State) (v : Byte) :
    (s.setP v).y = if s.setPClears v then zext (lo s.y) else s.y := by rw [State.setP_eq]
@[simp] theorem State.setP_c (s : State) (v : Byte) : (s.setP v).c = s.c := by rw [State.setP_eq]
@[simp] theorem State.setP_sp (s : State) (v : Byte) : (s.setP v).sp = s.sp := by rw [State.setP_eq]
@[simp] theorem State.setP_d (s : State) (v : Byte) : (s.setP v).d = s.d := by rw [State.setP_eq]
@[simp] theorem State.setP_dbr (s : State) (v : Byte) : (s.setP v).dbr = s.dbr := by rw [State.setP_eq]
@[simp] theorem State.setP_pbr (s : State) (v : Byte) : (s.setP v).pbr = s.pbr := by rw [State.setP_eq]
@[simp] theorem State.setP_pc (s : State) (v : Byte) : (s.setP v).pc = s.pc := by rw [State.setP_eq]
@[simp] theorem State.setP_e (s : State) (v : Byte) : (s.setP v).e = s.e := by rw [State.setP_eq]
@[simp] theorem State.setP_run (s : State) (v : Byte) : (s.setP v).run = s.run := by rw [State.setP_eq]
@[simp] theorem State.setP_cycles (s : State) (v : Byte) : (s.setP v).cycles = s.cycles := by rw [State.setP_eq]
@[simp] theorem State.setP_mem (s : State) (v : Byte) : (s.setP v).mem = s.mem := by rw [State.setP_eq]
@[simp] theorem State.setP_trace (s : State) (v : Byte) : (s.setP v).trace = s.trace := by rw [State.setP_eq]
@[simp] theorem State.setP_diag (s : State) (v : Byte) : (s.setP v).diag = s.diag := by rw [State.setP_eq]
@[simp] theorem State.setP_params (s : State) (v : Byte) : (s.setP v).params = s.params := by rw [State.setP_eq]

/-! ### Flags after the updates of P -/

@[simp] theorem State.flag_putFlag (s : State) (f g : Flag) (b : Bool) :
    (s.putFlag f b).flag g = if g = f then b else s.flag g := flagOf_withFlag s.p f g b

@[simp] theorem State.flag_putNZ (s : State) (v : Word) (w : Width) (g : Flag) :
    (s.putNZ v w).flag g =
      if g = .n then v.getLsbD (w.bits - 1) else if g = .z then w.trunc v == 0 else s.flag g :=
  flagOf_setNZ v w s.p g

end Sys2Proof.Machine
end

