-- ==== Sys2Proof/Laws/Bus.lean ====
section
/-! SUPPORT. Laws of the collaborator's calls: what a sequence of reads answers and records, and what a sequence
of writes leaves in memory. -/

namespace Sys2Proof.Safety

open Sys2Proof.Machine

/-- The state after the collaborator's calls that read the listed addresses. -/
def afterReads (s : State) (addrs : List Addr) : State := { s with trace := s.trace ++ readEvents s addrs }

/-- The state after the listed bytes are written at the listed addresses. -/
def afterWrites (s : State) (addrs : List Addr) (bytes : List Byte) : State :=
  { s with mem := replay s.mem (writeEvents addrs bytes), trace := s.trace ++ writeEvents addrs bytes }

@[simp] theorem answers_nil (s : State) : answers s [] = [] := rfl

theorem answers_cons (s : State) (a : Addr) (rest : List Addr) :
    answers s (a :: rest) = s.answer a :: answers (s.memRead a).2 rest := rfl

@[simp] theorem readEvents_nil (s : State) : readEvents s [] = [] := rfl

theorem readEvents_cons (s : State) (a : Addr) (rest : List Addr) :
    readEvents s (a :: rest) = .read a (s.answer a) :: readEvents (s.memRead a).2 rest := rfl

@[simp] theorem readEvents_length (s : State) (addrs : List Addr) : (readEvents s addrs).length = addrs.length := by
  induction addrs generalizing s with
  | nil => rfl
  | cons a rest ih => rw [readEvents_cons, List.length_cons, List.length_cons, ih]

@[simp] theorem answers_length (s : State) (addrs : List Addr) : (answers s addrs).length = addrs.length := by
  induction addrs generalizing s with
  | nil => rfl
  | cons a rest ih => rw [answers_cons, List.length_cons, List.length_cons, ih]

/-- An answer depends only on the memory, the parameters and the number of calls made before. -/
theorem answer_congr {s t : State} (hm : t.mem = s.mem) (hp : t.params = s.params)
    (ht : t.trace.length = s.trace.length) (a : Addr) : t.answer a = s.answer a := by
  have ho : t.oracleAt a = s.oracleAt a := by rw [State.oracleAt, State.oracleAt, hp]
  rw [State.answer, State.answer, ho, hm, ht]

theorem answers_congr {s t : State} (hm : t.mem = s.mem) (hp : t.params = s.params)
    (ht : t.trace.length = s.trace.length) (addrs : List Addr) : answers t addrs = answers s addrs := by
  induction addrs generalizing s t with
  | nil => rfl
  | cons a rest ih =>
    rw [answers_cons, answers_cons, answer_congr hm hp ht]
    rw [ih (s := (s.memRead a).2) (t := (t.memRead a).2)] <;> simp [*]

theorem readEvents_congr {s t : State} (hm : t.mem = s.mem) (hp : t.params = s.params)
    (ht : t.trace.length = s.trace.length) (addrs : List Addr) : readEvents t addrs = readEvents s addrs := by
  rw [readEvents, readEvents, answers_congr hm hp ht]

/-- With a RAM collaborator every answer is the byte in memory. -/
theorem answer_ram {s : State} (h : s.params.oracleRanges = []) (a : Addr) :
    s.answer a = Memory.read s.mem a.toNat := by
  simp [State.answer, State.oracleAt, h]

theorem answers_ram {s : State} (h : s.params.oracleRanges = []) (addrs : List Addr) :
    answers s addrs = addrs.map fun a => Memory.read s.mem a.toNat := by
  induction addrs generalizing s with
  | nil => rfl
  | cons a rest ih => rw [answers_cons, List.map_cons, answer_ram h, ih (s := (s.memRead a).2) h]; rfl

theorem afterReads_cons (s : State) (a : Addr) (rest : List Addr) :
    afterReads (s.memRead a).2 rest = afterReads s (a :: rest) := by
  simp only [afterReads, readEvents_cons, State.memRead_trace, List.append_assoc, List.singleton_append]; rfl

@[simp] theorem afterReads_nil (s : State) : afterReads s [] = s := by simp [afterReads]

/-- Two sequences of reads, one after the other. -/
theorem readEvents_append (s : State) (xs ys : List Addr) :
    readEvents s (xs ++ ys) = readEvents s xs ++ readEvents (afterReads s xs) ys := by
  induction xs generalizing s with
  | nil => simp [afterReads]
  | cons a rest ih =>
    rw [List.cons_append, readEvents_cons, readEvents_cons, ih, List.cons_append, afterReads_cons]

theorem answers_append (s : State) (xs ys : List Addr) :
    answers s (xs ++ ys) = answers s xs ++ answers (afterReads s xs) ys := by
  induction xs generalizing s with
  | nil => simp [afterReads]
  | cons a rest ih =>
    rw [List.cons_append, answers_cons, answers_cons, ih, List.cons_append, afterReads_cons]

theorem afterReads_append (s : State) (xs ys : List Addr) :
    afterReads (afterReads s xs) ys = afterReads s (xs ++ ys) := by
  simp only [afterReads, readEvents_append, List.append_assoc]

/-- Reads change nothing in memory. -/
theorem replay_readEvents (m : Memory) (s : State) (addrs : List Addr) : replay m (readEvents s addrs) = m := by
  induction addrs generalizing s with
  | nil => rfl
  | cons a rest ih => rw [readEvents_cons]; exact ih _

theorem replay_append (m : Memory) (xs ys : List BusEvent) : replay m (xs ++ ys) = replay (replay m xs) ys := by
  simp only [replay, List.foldl_append]

@[simp] theorem replay_nil (m : Memory) : replay m [] = m := rfl

@[simp] theorem replay_cons_write (m : Memory) (a : Addr) (v : Byte) (evs : List BusEvent) :
    replay m (.write a v :: evs) = replay (Memory.write m a.toNat v) evs := rfl

@[simp] theorem replay_cons_read (m : Memory) (a : Addr) (v : Byte) (evs : List BusEvent) :
    replay m (.read a v :: evs) = replay m evs := rfl

/-- Replaying calls keeps the canonical form. -/
theorem wf_replay {m : Memory} (evs : List BusEvent) (h : Memory.wf m = true) : Memory.wf (replay m evs) = true := by
  induction evs generalizing m with
  | nil => exact h
  | cons ev rest ih =>
    cases ev with
    | read a v => exact ih h
    | write a v => exact ih (Memory.wf_write a.isLt h)

/-- An address that no write of the list names reads as before. -/
theorem read_replay_other {m : Memory} {addrs : List Addr} {bytes : List Byte} {a : Nat}
    (h : a ∉ addrs.map BitVec.toNat) : Memory.read (replay m (writeEvents addrs bytes)) a = Memory.read m a := by
  induction addrs generalizing m bytes with
  | nil => rfl
  | cons b rest ih =>
    cases bytes with
    | nil => rfl
    | cons v vs =>
      simp only [List.map_cons, List.mem_cons, not_or] at h
      have := ih (m := Memory.write m b.toNat v) (bytes := vs) h.2
      rw [show writeEvents (b :: rest) (v :: vs) = .write b v :: writeEvents rest vs from rfl, replay_cons_write, this,
        Memory.read_write, if_neg h.1]

/-- Bytes written at distinct addresses read back. -/
theorem read_replay_writes {m : Memory} {addrs : List Addr} {bytes : List Byte} (h : addrs.Nodup) :
    ∀ p ∈ addrs.zip bytes, Memory.read (replay m (writeEvents addrs bytes)) p.1.toNat = p.2 := by
  induction addrs generalizing m bytes with
  | nil => simp
  | cons b rest ih =>
    cases bytes with
    | nil => simp
    | cons v vs =>
      rw [show writeEvents (b :: rest) (v :: vs) = .write b v :: writeEvents rest vs from rfl, replay_cons_write]
      intro p hp
      rw [List.nodup_cons] at h
      simp only [List.zip_cons_cons, List.mem_cons] at hp
      rcases hp with rfl | hp
      · have hb : b.toNat ∉ rest.map BitVec.toNat := by
          intro hm
          obtain ⟨x, hx, he⟩ := List.mem_map.1 hm
          exact h.1 (BitVec.eq_of_toNat_eq he ▸ hx)
        rw [read_replay_other hb]; simp
      · exact ih h.2 p hp

/-- `Stores`, from the memory and the calls. -/
theorem stores_of_replay {s t : State} {addrs : List Addr} {bytes : List Byte} {before : List BusEvent}
    (h : addrs.Nodup) (hm : t.mem = replay s.mem (writeEvents addrs bytes))
    (ht : t.trace = s.trace ++ before ++ writeEvents addrs bytes) : Stores addrs bytes before s t :=
  ⟨hm ▸ read_replay_writes h, fun _ ha => hm ▸ read_replay_other ha, ht⟩

/-- Memory that is kept whole. -/
theorem memKept_of_eq {s t : State} (h : t.mem = s.mem) : MemKeptBut [] s t := fun _ _ => by rw [h]

end Sys2Proof.Safety
end

