-- ==== Sys2Proof/Laws/Decimal.lean ====
section
/-! SUPPORT. One law for each round of the decimal loops of R182 and R183, in digits: what a round leaves in the
running result and the nibble carry. -/

namespace Sys2Proof.Safety

open Sys2Proof.Machine

/-- The mask of a nibble keeps that digit at its place. -/
theorem nibble_mask (v : Word) (i : Nat) : v.toNat &&& 0xF <<< (4 * i) = nibble v i * 2 ^ (4 * i) := by
  have h : v.toNat &&& 0xF <<< (4 * i) = ((v.toNat >>> (4 * i)) &&& 0xF) <<< (4 * i) := by
    apply Nat.eq_of_testBit_eq
    intro j
    simp only [Nat.testBit_and, Nat.testBit_shiftLeft, Nat.testBit_shiftRight]
    by_cases hj : 4 * i ≤ j
    · simp [hj]
    · simp [hj]
  have h16 : (16 : Nat) ^ i = 2 ^ (4 * i) := by rw [Nat.pow_mul]
  rw [h, Nat.shiftLeft_eq, Nat.shiftRight_eq_div_pow, nibble, h16,
    show (0xF : Nat) = 2 ^ 4 - 1 from rfl, Nat.and_two_pow_sub_one_eq_mod]

/-- What the digits below the nibble `i` hold when its round begins. -/
def lowDigits (acc : DecimalAcc) (i : Nat) : Nat := (acc.r % 2 ^ (4 * i)).toNat

theorem lowDigits_lt (acc : DecimalAcc) (i : Nat) : lowDigits acc i < 2 ^ (4 * i) := by
  have hp : (0 : Int) < 2 ^ (4 * i) := by positivity
  have h := Int.emod_lt_of_pos acc.r hp
  have h0 := Int.emod_nonneg acc.r hp.ne'
  have hc : ((2 ^ (4 * i) : Nat) : Int) = 2 ^ (4 * i) := by push_cast; rfl
  unfold lowDigits
  omega

/-- One round of `AddDec`: the digit sum, 6 more above 9, and the carry. -/
theorem decimalNibble_addAdjust (w : Width) (a b : Word) (acc : DecimalAcc) (i : Nat) :
    let t := nibble a i + nibble b i + acc.k
    let o := decimalNibble w a b addAdjust acc i
    o.r = (((if 9 < t then t + 6 else t) * 2 ^ (4 * i) + lowDigits acc i : Nat) : Int) ∧
      o.k = (if 9 < t then 1 else 0) := by
  intro t o
  have hl := lowDigits_lt acc i
  have hs : (2 : Nat) ^ (4 * i + 4) = 16 * 2 ^ (4 * i) := by rw [Nat.pow_add, Nat.mul_comm]
  have hr : (a.toNat &&& 0xF <<< (4 * i)) + (b.toNat &&& 0xF <<< (4 * i)) + acc.k <<< (4 * i) +
      (acc.r % 2 ^ (4 * i)).toNat = t * 2 ^ (4 * i) + lowDigits acc i := by
    rw [nibble_mask, nibble_mask, Nat.shiftLeft_eq]; simp only [t, lowDigits]; ring
  have hz : (2 : Int) ^ (4 * i + 4) = ((2 ^ (4 * i + 4) : Nat) : Int) := by push_cast; rfl
  simp only [o, decimalNibble, hr]
  simp only [addAdjust, Nat.shiftLeft_eq, hz, hs]
  have hpos : 0 < 2 ^ (4 * i) := by positivity
  generalize 2 ^ (4 * i) = q at *
  by_cases ht : 9 < t
  · have hm : 10 * q ≤ t * q := Nat.mul_le_mul_right q ht
    have hm2 : (t + 6) * q = t * q + 6 * q := by ring
    rw [if_pos (by omega), if_pos ht, if_pos ht, if_pos (by push_cast; omega)]
    exact ⟨by rw [hm2]; push_cast; ring, rfl⟩
  · have hm : t * q ≤ 9 * q := Nat.mul_le_mul_right q (by omega)
    rw [if_neg (by omega), if_neg ht, if_neg ht, if_neg (by push_cast; omega)]
    exact ⟨rfl, rfl⟩

/-- One round of `SubDec`, over the complement: the digit sum, 6 less where it does not carry, and the carry. -/
theorem decimalNibble_subAdjust (w : Width) (a b : Word) (acc : DecimalAcc) (i : Nat) :
    let t := nibble a i + nibble b i + acc.k
    let o := decimalNibble w a b subAdjust acc i
    o.r = ((t : Int) - if 15 < t then 0 else 6) * 2 ^ (4 * i) + lowDigits acc i ∧
      o.k = (if 15 < t then 1 else 0) := by
  intro t o
  have hl := lowDigits_lt acc i
  have hs : (2 : Nat) ^ (4 * i + 4) = 16 * 2 ^ (4 * i) := by rw [Nat.pow_add, Nat.mul_comm]
  have hr : (a.toNat &&& 0xF <<< (4 * i)) + (b.toNat &&& 0xF <<< (4 * i)) + acc.k <<< (4 * i) +
      (acc.r % 2 ^ (4 * i)).toNat = t * 2 ^ (4 * i) + lowDigits acc i := by
    rw [nibble_mask, nibble_mask, Nat.shiftLeft_eq]; simp only [t, lowDigits]; ring
  have hz : (2 : Int) ^ (4 * i + 4) = ((2 ^ (4 * i + 4) : Nat) : Int) := by push_cast; rfl
  have hy : (2 : Int) ^ (4 * i) = ((2 ^ (4 * i) : Nat) : Int) := by push_cast; rfl
  simp only [o, decimalNibble, hr]
  simp only [subAdjust, Nat.shiftLeft_eq, hz, hy, hs]
  have hpos : 0 < 2 ^ (4 * i) := by positivity
  generalize 2 ^ (4 * i) = q at *
  by_cases ht : 15 < t
  · have hm : 16 * q ≤ t * q := Nat.mul_le_mul_right q ht
    rw [if_neg (by omega), if_pos ht, if_pos ht, if_pos (by push_cast; omega)]
    exact ⟨by push_cast; ring, rfl⟩
  · have hm : t * q ≤ 15 * q := Nat.mul_le_mul_right q (by omega)
    rw [if_pos (by omega), if_neg ht, if_neg ht, if_neg (by push_cast; omega)]
    exact ⟨by push_cast; ring, rfl⟩

end Sys2Proof.Safety
end

