-- ==== Sys2Proof/Laws/Ops.lean ====
section
/-! SUPPORT. One law for each shared operation over memory and the stack (Machine/Ops.lean): all that it can do,
in the terms of Safety.lean. -/

namespace Sys2Proof.Safety

open Sys2Proof.Machine

/-! ### Addresses -/

theorem addrOf_zero (o : Word) : addrOf 0x00 o = bank0 o.toNat := by
  have := o.isLt
  apply BitVec.eq_of_toNat_eq
  simp only [addrOf_toNat, bank0, BitVec.toNat_ofNat, BitVec.reduceToNat]; omega

theorem bank0_toNat (n : Nat) : (bank0 n).toNat = n % 2 ^ 16 := by
  simp only [bank0, BitVec.toNat_ofNat]; omega

theorem bank0_congr {m n : Nat} (h : m % 2 ^ 16 = n % 2 ^ 16) : bank0 m = bank0 n := by
  simp only [bank0, h]

/-- Byte `k` of a value, by the rules of R86. -/
theorem byteAddrs_eq (q : Seq) (a : Addr) (n : Nat) : byteAddrs q a n = (List.range n).map (q.at a) := by
  unfold byteAddrs
  refine List.map_congr_left fun k _ => ?_
  cases q with
  | bank0 =>
    simp only [Seq.at, addrOf_zero, BitVec.toNat_add, alOffset_toNat, BitVec.toNat_ofNat]
    exact bank0_congr (by omega)
  | long =>
    apply BitVec.eq_of_toNat_eq
    simp only [Seq.at, BitVec.toNat_add, BitVec.toNat_ofNat]; omega

theorem littleEndian_lt (bs : List Byte) : littleEndian bs < 2 ^ (8 * bs.length) := by
  induction bs with
  | nil => simp [littleEndian]
  | cons b rest ih =>
    have := b.isLt
    have h : 2 ^ (8 * (rest.length + 1)) = 2 ^ 8 * 2 ^ (8 * rest.length) := by rw [← Nat.pow_add]; congr 1; omega
    rw [littleEndian, List.length_cons, h]
    omega

/-! ### Reads -/

/-- `ReadN(a, 2, seq)`: two reads, low byte first. -/
theorem read16_eq (s : State) (q : Seq) (a : Addr) :
    (s.read16 q a).1.toNat = littleEndian (answers s (byteAddrs q a 2)) ∧
      (s.read16 q a).2 = afterReads s (byteAddrs q a 2) := by
  rw [byteAddrs_eq]
  constructor
  · simp only [State.read16, List.range, List.range.loop, List.map, answers_cons, answers_nil, littleEndian,
      State.memRead_fst, word_toNat]
    omega
  · simp only [List.range, List.range.loop, List.map, ← afterReads_cons, afterReads_nil]; rfl

/-- `ReadN(a, 3, seq)`: three reads, low byte first. -/
theorem read24_eq (s : State) (q : Seq) (a : Addr) :
    (s.read24 q a).1.toNat = littleEndian (answers s (byteAddrs q a 3)) ∧
      (s.read24 q a).2 = afterReads s (byteAddrs q a 3) := by
  rw [byteAddrs_eq]
  constructor
  · simp only [State.read24, State.read16, List.range, List.range.loop, List.map, answers_cons, answers_nil,
      littleEndian, State.memRead_fst, word_toNat, addrOf_toNat]
    omega
  · simp only [List.range, List.range.loop, List.map, ← afterReads_cons, afterReads_nil]; rfl

/-- `ReadN(a, w/8, seq)`. -/
theorem readW_eq (s : State) (q : Seq) (a : Addr) (w : Width) :
    (s.readW q a w).1.toNat = littleEndian (answers s (byteAddrs q a (w.bits / 8))) ∧
      (s.readW q a w).2 = afterReads s (byteAddrs q a (w.bits / 8)) := by
  cases w with
  | w8 =>
    rw [byteAddrs_eq]
    constructor
    · simp [State.readW, Width.bits, List.range, List.range.loop, answers_cons, littleEndian, zext_toNat]
    · simp only [Width.bits, Nat.reduceDiv, List.range, List.range.loop, List.map, ← afterReads_cons, afterReads_nil]
      rfl
  | w16 => exact read16_eq s q a

theorem readW_lt (s : State) (q : Seq) (a : Addr) (w : Width) : (s.readW q a w).1.toNat < 2 ^ w.bits := by
  have h := littleEndian_lt (answers s (byteAddrs q a (w.bits / 8)))
  rw [← (readW_eq s q a w).1, answers_length, byteAddrs_eq, List.length_map, List.length_range] at h
  cases w <;> exact h

/-! ### Writes -/

/-- `WriteN(a, w/8, seq, v)`: the bytes of the value, low byte first. -/
theorem writeW_eq (s : State) (q : Seq) (a : Addr) (w : Width) (v : Word) :
    s.writeW q a w v = afterWrites s (byteAddrs q a (w.bits / 8)) (valueBytes v w) := by
  rw [byteAddrs_eq]
  cases w with
  | w8 => rfl
  | w16 =>
    simp only [State.writeW, State.memWrite, State.record, afterWrites, Width.bits, Nat.reduceDiv, List.range,
      List.range.loop, List.map, valueBytes, writeEvents, List.zip, List.zipWith, replay_cons_write, replay_nil,
      List.append_assoc, List.cons_append, List.nil_append]

/-! ### The stack -/

theorem spDown_eq (s : State) : s.spDown = spAfterPushes s 1 := by
  have := s.sp.isLt
  apply BitVec.eq_of_toNat_eq
  simp only [State.spDown, spAfterPushes, pushAddr]
  split
  · simp only [word_toNat, BitVec.toNat_sub, lo_toNat, bank0_toNat, BitVec.toNat_ofNat, BitVec.reduceToNat]; omega
  · simp only [BitVec.toNat_sub, bank0_toNat, BitVec.toNat_ofNat, BitVec.reduceToNat]; omega

theorem spUp_eq (s : State) : s.spUp = spAfterPulls s 0 := by
  have := s.sp.isLt
  apply BitVec.eq_of_toNat_eq
  simp only [State.spUp, spAfterPulls, pullAddr]
  split
  · simp only [word_toNat, BitVec.toNat_add, lo_toNat, bank0_toNat, BitVec.toNat_ofNat, BitVec.reduceToNat]; omega
  · simp only [BitVec.toNat_add, bank0_toNat, BitVec.toNat_ofNat, BitVec.reduceToNat]; omega

/-- Pushing byte by byte: the pushes after the first are those of the state after it. -/
theorem pushAddr_succ (s t : State) (he : t.e = s.e) (hs : t.sp = s.spDown) (k : Nat) (hk : k < 2 ^ 8) :
    pushAddr t k = pushAddr s (k + 1) := by
  have := s.sp.isLt
  rw [spDown_eq] at hs
  cases k with
  | zero =>
    rw [pushAddr, hs, spAfterPushes]
    apply BitVec.eq_of_toNat_eq
    have : (pushAddr s 1).toNat < 2 ^ 16 := by
      simp only [pushAddr]; split <;> rw [bank0_toNat] <;> omega
    rw [bank0_toNat, BitVec.toNat_ofNat]; show _ = (pushAddr s 1).toNat; omega
  | succ k =>
    simp only [pushAddr, he, hs, spAfterPushes]
    split
    · apply bank0_congr; simp only [bank0_toNat, BitVec.toNat_ofNat]; omega
    · apply bank0_congr; simp only [bank0_toNat, BitVec.toNat_ofNat]; omega

theorem pushAddrs_succ (s t : State) (he : t.e = s.e) (hs : t.sp = s.spDown) (n : Nat) (hn : n ≤ 2 ^ 8) :
    pushAddrs s (n + 1) = addrOf 0x00 s.sp :: pushAddrs t n := by
  rw [pushAddrs, List.range_succ_eq_map, List.map_cons, List.map_map, addrOf_zero, pushAddrs]
  congr 1
  refine List.map_congr_left fun k hk => ?_
  exact (pushAddr_succ s t he hs k (by have := List.mem_range.1 hk; omega)).symm

theorem spAfterPushes_succ (s t : State) (he : t.e = s.e) (hs : t.sp = s.spDown) (n : Nat) (hn : n < 2 ^ 8) :
    spAfterPushes s (n + 1) = spAfterPushes t n := by
  rw [spAfterPushes, spAfterPushes, pushAddr_succ s t he hs n hn]

/-- The state after a list of bytes is pushed, in order (R300). -/
def afterPushes (s : State) (bytes : List Byte) : State :=
  { afterWrites s (pushAddrs s bytes.length) bytes with sp := spAfterPushes s bytes.length }

theorem spAfterPushes_zero (s : State) : spAfterPushes s 0 = s.sp := by
  have := s.sp.isLt
  apply BitVec.eq_of_toNat_eq
  rw [spAfterPushes, pushAddr, BitVec.toNat_ofNat, bank0_toNat]; omega

@[simp] theorem afterPushes_nil (s : State) : afterPushes s [] = s := by
  simp only [afterPushes, List.length_nil, spAfterPushes_zero]
  simp [afterWrites, writeEvents]

/-- `Push8` and then more pushes. -/
theorem afterPushes_cons (s : State) (b : Byte) (rest : List Byte) (h : rest.length < 2 ^ 8) :
    afterPushes (s.push8 b) rest = afterPushes s (b :: rest) := by
  simp only [afterPushes, List.length_cons]
  rw [spAfterPushes_succ s (s.push8 b) rfl rfl rest.length h,
    pushAddrs_succ s (s.push8 b) rfl rfl rest.length (by omega)]
  simp only [afterWrites, State.push8, State.memWrite, State.record, writeEvents, List.zip_cons_cons, List.map_cons,
    replay_cons_write, List.append_assoc, List.singleton_append]

theorem push8_eq (s : State) (b : Byte) : s.push8 b = afterPushes s [b] := by
  rw [← afterPushes_cons _ _ _ (by decide), afterPushes_nil]

/-- `Push16(v)`: high byte first (R302). -/
theorem push16_eq (s : State) (v : Word) : s.push16 v = afterPushes s [hi v, lo v] := by
  rw [State.push16, ← afterPushes_cons _ _ _ (by simp), push8_eq]

/-- `PushN(v, w)` (R302). -/
theorem pushW_eq (s : State) (v : Word) (w : Width) : s.pushW v w = afterPushes s (valueBytes v w).reverse := by
  cases w with
  | w8 => exact push8_eq s (lo v)
  | w16 => exact push16_eq s v

/-- The pushes of one instruction, up to a page of them, go to different addresses. -/
theorem pushAddrs_nodup (s : State) (n : Nat) (hn : n ≤ 2 ^ 8) : (pushAddrs s n).Nodup := by
  have hs := s.sp.isLt
  rw [pushAddrs, List.Nodup, List.pairwise_map]
  refine List.Pairwise.imp_of_mem ?_ (List.pairwise_lt_range (n := n))
  intro i j hi hj hlt he
  have hj := List.mem_range.1 hj
  have he := congrArg BitVec.toNat he
  cases j with
  | zero => omega
  | succ j =>
    cases i with
    | zero =>
      simp only [pushAddr] at he
      split at he <;> simp only [bank0_toNat] at he <;> omega
    | succ i =>
      simp only [pushAddr] at he
      split at he <;> simp only [bank0_toNat] at he <;> omega

/-- The state after `n + 1` bytes are pulled (R301). -/
def afterPulls (s : State) (n : Nat) : State :=
  { afterReads s (pullAddrs s (n + 1)) with sp := spAfterPulls s n }

theorem pullAddr_succ (s t : State) (he : t.e = s.e) (hs : t.sp = s.spUp) (k : Nat) :
    pullAddr t k = pullAddr s (k + 1) := by
  have := s.sp.isLt
  rw [spUp_eq] at hs
  simp only [pullAddr, he, hs, spAfterPulls]
  split
  · apply bank0_congr; simp only [bank0_toNat, BitVec.toNat_ofNat]; omega
  · apply bank0_congr; simp only [bank0_toNat, BitVec.toNat_ofNat]; omega

theorem pullAddrs_succ (s t : State) (he : t.e = s.e) (hs : t.sp = s.spUp) (n : Nat) :
    pullAddrs s (n + 1) = pullAddr s 0 :: pullAddrs t n := by
  rw [pullAddrs, List.range_succ_eq_map, List.map_cons, List.map_map, pullAddrs]
  congr 1
  exact List.map_congr_left fun k _ => (pullAddr_succ s t he hs k).symm

theorem addrOf_spUp (s : State) : addrOf 0x00 s.spUp = pullAddr s 0 := by
  rw [addrOf_zero, spUp_eq, spAfterPulls]
  apply BitVec.eq_of_toNat_eq
  have : (pullAddr s 0).toNat < 2 ^ 16 := by
    simp only [pullAddr]; split <;> rw [bank0_toNat] <;> omega
  rw [bank0_toNat, BitVec.toNat_ofNat]; omega

/-- `Pull8()`: one read above S. -/
theorem pull8_eq (s : State) : s.pull8.1 = s.answer (pullAddr s 0) ∧ s.pull8.2 = afterPulls s 0 := by
  refine ⟨by rw [State.pull8_fst, addrOf_spUp], ?_⟩
  rw [afterPulls, ← spUp_eq, State.pull8, addrOf_spUp]; rfl

/-- `Pull8` and then more pulls. -/
theorem afterPulls_succ (s : State) (n : Nat) : afterPulls s.pull8.2 n = afterPulls s (n + 1) := by
  have h := pullAddrs_succ s s.pull8.2 rfl rfl (n + 1)
  have hp : spAfterPulls s (n + 1) = spAfterPulls s.pull8.2 n := by
    rw [spAfterPulls, spAfterPulls, pullAddr_succ s s.pull8.2 rfl rfl n]
  simp only [afterPulls, hp, h, afterReads, readEvents_cons, State.pull8_trace, addrOf_spUp, List.append_assoc,
    List.singleton_append]
  rw [readEvents_congr (s := (s.memRead (pullAddr s 0)).2) (t := s.pull8.2) rfl rfl (by simp)]
  rfl

theorem answers_pulls_succ (s : State) (n : Nat) :
    answers s (pullAddrs s (n + 1)) = s.pull8.1 :: answers s.pull8.2 (pullAddrs s.pull8.2 n) := by
  rw [pullAddrs_succ s s.pull8.2 rfl rfl n, answers_cons, (pull8_eq s).1,
    answers_congr (s := (s.memRead (pullAddr s 0)).2) (t := s.pull8.2) rfl rfl (by simp)]

/-- `Pull16()`: low byte first (R302). -/
theorem pull16_eq (s : State) : s.pull16.1.toNat = pulled s 1 ∧ s.pull16.2 = afterPulls s 1 := by
  refine ⟨?_, by rw [← afterPulls_succ, ← (pull8_eq _).2]; rfl⟩
  rw [pulled, answers_pulls_succ, answers_pulls_succ]
  simp only [State.pull16, word_toNat, littleEndian, pullAddrs, List.range, List.range.loop, List.map, answers_nil]
  omega

/-- `PullN(w)` (R302). -/
theorem pullW_eq (s : State) (w : Width) :
    (s.pullW w).1.toNat = pulled s (w.bits / 8 - 1) ∧ (s.pullW w).2 = afterPulls s (w.bits / 8 - 1) := by
  cases w with
  | w8 =>
    refine ⟨?_, (pull8_eq s).2⟩
    rw [pulled, Width.bits, answers_pulls_succ, State.pullW, zext_toNat]
    simp [littleEndian, pullAddrs]
  | w16 => exact pull16_eq s

end Sys2Proof.Safety
end

