-- ==== Sys2Proof/Laws/Operands.lean ====
section
/-! SUPPORT. One law for the operand resolver and one for the fetch: all that they can do. -/

namespace Sys2Proof.Safety

open Sys2Proof.Machine

/-! ### The resolver -/

/-- Which calls the pointer at `a` takes (R134, R135). -/
def pointerReads (s : State) (a : Addr) : List Addr :=
  if s.dpPageWrap then [a, addrOf 0x00 (word (alHi a) (alLo a + 1))] else byteAddrs .bank0 a 2

theorem dpPtr_eq (s : State) (a : Addr) :
    (s.dpPtr a).1.toNat = littleEndian (answers s (pointerReads s a)) ∧
      (s.dpPtr a).2 = afterReads s (pointerReads s a) := by
  unfold State.dpPtr pointerReads
  split
  · constructor
    · simp only [answers_cons, answers_nil, littleEndian, State.memRead_fst, word_toNat]; omega
    · simp only [← afterReads_cons, afterReads_nil]
  · exact read16_eq s .bank0 a

/-- Resolving an operand makes reads only: every field but the trace is kept. -/
theorem ea_reads (s : State) (m : DataMode) : ∃ reads, (s.ea m).st = afterReads s reads := by
  cases m <;> simp only [State.ea, (dpPtr_eq _ _).2, (read24_eq _ _ _).2, (read16_eq _ _ _).2]
  case dpind d => exact ⟨_, rfl⟩
  case dpxind d => exact ⟨_, rfl⟩
  case dpindy d => exact ⟨_, rfl⟩
  case dplong d => exact ⟨_, rfl⟩
  case dplongy d => exact ⟨_, rfl⟩
  case sriy d => exact ⟨_, rfl⟩
  all_goals exact ⟨[], (afterReads_nil s).symm⟩

/-- Reading an operand makes reads only. -/
theorem operandRead_reads (s : State) (src : Operand) (w : Width) :
    ∃ reads, (s.operandRead src w).st = afterReads s reads := by
  cases src with
  | imm k => exact ⟨[], (afterReads_nil s).symm⟩
  | mem m =>
    obtain ⟨reads, h⟩ := ea_reads s m
    refine ⟨reads ++ byteAddrs (s.ea m).seq (s.ea m).addr (w.bits / 8), ?_⟩
    simp only [State.operandRead, (readW_eq _ _ _ _).2, h, afterReads_append]

/-- An operand's value fits its width. -/
theorem operandRead_lt (s : State) (src : Operand) (w : Width) : (s.operandRead src w).val.toNat < 2 ^ w.bits := by
  cases src with
  | imm k =>
    simp only [State.operandRead, trunc_toNat]
    exact Nat.mod_lt _ (Nat.two_pow_pos _)
  | mem m => exact readW_lt _ _ _ _

/-- Writing an operand: the pointer is read, then the value's bytes are written at the operand's addresses. -/
theorem operandWrite_eq (s : State) (m : DataMode) (w : Width) (v : Word) :
    s.operandWrite m w v =
      afterWrites (s.ea m).st (byteAddrs (s.ea m).seq (s.ea m).addr (w.bits / 8)) (valueBytes v w) :=
  writeW_eq _ _ _ _ _

/-- The bytes of a value lie at different addresses. -/
theorem byteAddrs_nodup (q : Seq) (a : Addr) (w : Width) : (byteAddrs q a (w.bits / 8)).Nodup := by
  have := a.isLt
  cases w with
  | w8 => simp [byteAddrs, Width.bits, List.range, List.range.loop]
  | w16 =>
    cases q <;>
      simp only [byteAddrs, Width.bits, Nat.reduceDiv, List.range, List.range.loop, List.map, List.nodup_cons,
        List.mem_singleton, List.not_mem_nil, not_false_eq_true, List.nodup_nil, and_true, ← BitVec.toNat_inj,
        bank0_toNat, BitVec.toNat_ofNat] <;> omega

/-! ### Fetch -/

/-- The addresses of `n` instruction bytes from PBR:PC, wrapping inside the bank (R130). -/
def fetchAddrs (s : State) (n : Nat) : List Addr :=
  (List.range n).map fun k => addrOf s.pbr (s.pc + BitVec.ofNat 16 k)

theorem fetchAddrs_succ (s : State) (n : Nat) :
    fetchAddrs s (n + 1) = addrOf s.pbr s.pc :: fetchAddrs s.fetch8.2 n := by
  rw [fetchAddrs, List.range_succ_eq_map, List.map_cons, List.map_map, fetchAddrs]
  refine congr (congrArg _ (by simp)) (List.map_congr_left fun k _ => ?_)
  simp only [Function.comp, State.fetch8_pbr, State.fetch8_pc]
  congr 1
  apply BitVec.eq_of_toNat_eq
  simp only [BitVec.toNat_add, BitVec.toNat_ofNat, BitVec.reduceToNat]; omega

/-- The operand fetch: the bytes at PBR:PC in address order, PC past them, and nothing else (R75, R130). -/
theorem fetchBytes_eq (n : Nat) (s : State) :
    State.fetchBytes n s =
      (answers s (fetchAddrs s n), { afterReads s (fetchAddrs s n) with pc := s.pc + BitVec.ofNat 16 n }) := by
  induction n generalizing s with
  | zero => simp [State.fetchBytes, fetchAddrs]
  | succ n ih =>
    rw [State.fetchBytes, ih, fetchAddrs_succ, answers_cons]
    have hc : answers s.fetch8.2 (fetchAddrs s.fetch8.2 n) =
        answers (s.memRead (addrOf s.pbr s.pc)).2 (fetchAddrs s.fetch8.2 n) :=
      answers_congr (by simp) (by simp) (by simp) _
    have hr : readEvents s.fetch8.2 (fetchAddrs s.fetch8.2 n) =
        readEvents (s.memRead (addrOf s.pbr s.pc)).2 (fetchAddrs s.fetch8.2 n) :=
      readEvents_congr (by simp) (by simp) (by simp) _
    have hp : s.pc + 1 + BitVec.ofNat 16 n = s.pc + BitVec.ofNat 16 (n + 1) := by
      apply BitVec.eq_of_toNat_eq
      simp only [BitVec.toNat_add, BitVec.toNat_ofNat, BitVec.reduceToNat]; omega
    refine Prod.ext ?_ ?_
    · simp only [hc, State.fetch8_fst]
    · simp only [afterReads, readEvents_cons, hr, State.fetch8_pc, hp, State.fetch8_trace, List.append_assoc,
        List.singleton_append]
      rfl

end Sys2Proof.Safety
end

