-- ==== Sys2Proof/Laws/Interrupts.lean ====
section
/-! SUPPORT. One law for each of interrupt entry, the return from one, reset, the operand fetch and the block-move
step: all that they can do. -/

namespace Sys2Proof.Safety

open Sys2Proof.Machine

/-- The byte that entry pushes for P (R404). -/
theorem pushedP_eq (s : State) (k : EntryKind) :
    s.pushedP k = if s.e = true ∧ (k = .irq ∨ k = .nmi) then withFlag s.p .x false else s.p := by
  unfold State.pushedP
  cases k <;> cases s.e <;> simp [EntryKind.hardware, withFlag, Flag.mask, Flag.bit]

/-- The vector's two bytes (R403). -/
theorem byteAddrs_vector (e : Bool) (k : EntryKind) :
    byteAddrs .bank0 (addrOf 0x00 (k.vector e)) 2 = [bank0 (vectorOf e k), bank0 (vectorOf e k + 1)] := by
  cases e <;> cases k <;> decide

/-- Interrupt entry: the pushes, the two flags, the two reads of the vector, PBR and PC, and nothing else (R404). -/
theorem enterInterrupt_eq (s : State) (k : EntryKind) :
    let b := afterPushes s (entryBytes s k)
    let t := { (b.putFlag .i true).putFlag .d false with pbr := 0x00 }
    let v := [bank0 (vectorOf s.e k), bank0 (vectorOf s.e k + 1)]
    s.enterInterrupt k = { afterReads t v with pc := BitVec.ofNat 16 (littleEndian (answers t v)) } := by
  intro b t v
  have hb : ((if s.e then s else s.push8 s.pbr).push16 s.pc).push8 (s.pushedP k) = b := by
    cases he : s.e
    · simp only [Bool.false_eq_true, if_false, State.push16, b, entryBytes, he]
      rw [push8_eq, afterPushes_cons _ _ _ (by simp), afterPushes_cons _ _ _ (by simp),
        afterPushes_cons _ _ _ (by simp), pushedP_eq]
      simp [he]
    · simp only [if_true, State.push16, b, entryBytes, he]
      rw [push8_eq, afterPushes_cons _ _ _ (by simp), afterPushes_cons _ _ _ (by simp), pushedP_eq]
      simp [he]
  have hv := read16_eq t .bank0 (addrOf 0x00 (k.vector s.e))
  rw [byteAddrs_vector] at hv
  have h1 : (t.read16 .bank0 (addrOf 0x00 (k.vector s.e))).1 = BitVec.ofNat 16 (littleEndian (answers t v)) := by
    apply BitVec.eq_of_toNat_eq
    have := (t.read16 .bank0 (addrOf 0x00 (k.vector s.e))).1.isLt
    rw [BitVec.toNat_ofNat, ← hv.1, Nat.mod_eq_of_lt this]
  have h2 : (t.read16 .bank0 (addrOf 0x00 (k.vector s.e))).2 = afterReads t v := hv.2
  rw [← h1, ← h2]
  simp only [State.enterInterrupt, hb, t]

/-- `reset`: the power-on pattern, then the two reads of the reset vector (R452). -/
theorem hostReset_eq (s : State) :
    let v := [bank0 0xFFFC, bank0 0xFFFD]
    hostReset s =
      { afterReads s.powerOn v with pc := BitVec.ofNat 16 (littleEndian (answers s.powerOn v)) } := by
  intro v
  have hv := read16_eq s.powerOn .bank0 0x00FFFC
  rw [show byteAddrs .bank0 0x00FFFC 2 = v by decide] at hv
  have h1 : (s.powerOn.read16 .bank0 0x00FFFC).1 = BitVec.ofNat 16 (littleEndian (answers s.powerOn v)) := by
    apply BitVec.eq_of_toNat_eq
    have := (s.powerOn.read16 .bank0 0x00FFFC).1.isLt
    rw [BitVec.toNat_ofNat, ← hv.1, Nat.mod_eq_of_lt this]
  rw [← h1, ← hv.2]
  rfl

/-- The operand fetch: the decoded instruction, and the state with PC past its operand (R36, R102). -/
theorem fetchOperands_eq (s : State) (op : Byte) :
    let addrs := fetchAddrs s (operandCount op s.widths)
    s.fetchOperands op = (decodeOp op (.ofList s.widths (answers s addrs)),
      { afterReads s addrs with pc := s.pc + BitVec.ofNat 16 (operandCount op s.widths) }) := by
  intro addrs
  simp only [State.fetchOperands, fetchBytes_eq, addrs]

/-- The return from an interrupt in emulation mode: three bytes are pulled, P through `setP`, then PC (R420). -/
theorem returnFromInterrupt_emulation (s : State) (h : s.e = true) :
    let a := s.pull8.2.setP s.pull8.1
    s.returnFromInterrupt = { a.pull16.2 with pc := a.pull16.1 } := by
  intro a
  have he : a.pull16.2.e = true := by rw [(pull16_eq a).2]; simpa [afterPulls, afterReads, a] using h
  simp only [State.returnFromInterrupt]
  exact if_pos he

/-- The return from an interrupt in native mode: four bytes are pulled, the last into PBR (R420). -/
theorem returnFromInterrupt_native (s : State) (h : s.e = false) :
    let a := s.pull8.2.setP s.pull8.1
    let t := { a.pull16.2 with pc := a.pull16.1 }
    s.returnFromInterrupt = { t.pull8.2 with pbr := t.pull8.1 } := by
  intro a t
  have he : a.pull16.2.e = false := by rw [(pull16_eq a).2]; simpa [afterPulls, afterReads, a] using h
  simp only [State.returnFromInterrupt]
  exact if_neg (Bool.eq_false_iff.1 he)

/-- The block-move step: one read, one write, and the registers (R362). -/
theorem blockStep_eq (delta : Word) (dst src : Byte) (s : State) :
    let a := addrOf src s.readX
    let b := addrOf dst s.readY
    blockStep delta dst src s =
      { s with
        dbr := dst
        mem := Memory.write s.mem b.toNat (s.answer a)
        trace := s.trace ++ [.read a (s.answer a), .write b (s.answer a)]
        x := s.indexWrite s.x (s.readX + delta)
        y := s.indexWrite s.y (s.readY + delta)
        c := s.c - 1
        pc := if s.c - 1 = 0xFFFF then s.pc else s.pc - 3 } := by
  intro a b
  have ha : ({ s with dbr := dst } : State).answer a = s.answer a := answer_congr rfl rfl rfl a
  simp only [blockStep, State.memRead, ← ha, State.memWrite, State.record, State.writeX, State.writeY,
    List.append_assoc, List.cons_append, List.nil_append]
  rfl

end Sys2Proof.Safety
end

