-- ==== Sys2Proof/Laws/PerInstr.lean ====
section
/-! SUPPORT. The family Encoding, one lemma per constructor of Instr: the encoder writes as many operand bytes as
the decoder takes for that opcode, and the decoder's map gives the instruction back from them. -/

namespace Sys2Proof.Laws.Encoding

/-- At widths that `i` is well formed at, its operand has the length that its opcode selects, and the opcode map
reads `i` from its opcode and operand bytes. -/
def Statement (i : Instr) : Prop :=
  ∀ w : Widths, i.wf w = true →
    operandCount i.opcode w = i.operandBytes.length ∧ decodeOp i.opcode (.ofList w i.operandBytes) = i

/-- A row of the opcode map (R109), by its number. -/
abbrev decodeRow (row col : Nat) (o : OperandBytes) : Instr :=
  match row with
  | 0 => decodeRow0 col o
  | 1 => decodeRow1 col o
  | 2 => decodeRow2 col o
  | 3 => decodeRow3 col o
  | 4 => decodeRow4 col o
  | 5 => decodeRow5 col o
  | 6 => decodeRow6 col o
  | 7 => decodeRow7 col o
  | 8 => decodeRow8 col o
  | 9 => decodeRow9 col o
  | 10 => decodeRowA col o
  | 11 => decodeRowB col o
  | 12 => decodeRowC col o
  | 13 => decodeRowD col o
  | 14 => decodeRowE col o
  | _ => decodeRowF col o

/-- The statement for an instruction that stands at `row` and `col` of the opcode map. -/
theorem of_place {i : Instr} {w : Widths} (row col : Nat) (h : i.opcode.toNat = 16 * row + col) (hc : col < 16)
    (hn : ((((operandLensLow ++ operandLensHigh).getD row []).getD col .n0).count w) = i.operandBytes.length)
    (hd : decodeRow row col (.ofList w i.operandBytes) = i) :
    operandCount i.opcode w = i.operandBytes.length ∧ decodeOp i.opcode (.ofList w i.operandBytes) = i := by
  have hr : i.opcode.toNat / 16 = row := by omega
  have hm : i.opcode.toNat % 16 = col := by omega
  exact ⟨by rw [operandCount, hr, hm, hn], by rw [decodeOp, hr, hm]; exact hd⟩

/-- An immediate that fits a width has its length and is read back from its bytes. -/
theorem imm_fits {k : Imm} {w : Width} (h : k.fits w = true) :
    w.bits / 8 = k.bytes.length ∧ immOf w (k.bytes.getD 0 0) (k.bytes.getD 1 0) = k := by
  cases k <;> cases w
  · exact ⟨by simp [Width.bits, Imm.bytes], rfl⟩
  · cases h
  · cases h
  · exact ⟨by simp [Width.bits, Imm.bytes], congrArg Imm.w16 (word_hi_lo _)⟩

theorem brkSig8 (k : Byte) : Statement (.brkSig8 k) :=
  fun _ _ => of_place 0 0 rfl (by decide) rfl rfl
theorem oraDpxind (d : Byte) : Statement (.oraDpxind d) :=
  fun _ _ => of_place 0 1 rfl (by decide) rfl rfl
theorem copSig8 (k : Byte) : Statement (.copSig8 k) :=
  fun _ _ => of_place 0 2 rfl (by decide) rfl rfl
theorem oraSr (d : Byte) : Statement (.oraSr d) :=
  fun _ _ => of_place 0 3 rfl (by decide) rfl rfl
theorem tsbDp (d : Byte) : Statement (.tsbDp d) :=
  fun _ _ => of_place 0 4 rfl (by decide) rfl rfl
theorem oraDp (d : Byte) : Statement (.oraDp d) :=
  fun _ _ => of_place 0 5 rfl (by decide) rfl rfl
theorem aslDp (d : Byte) : Statement (.aslDp d) :=
  fun _ _ => of_place 0 6 rfl (by decide) rfl rfl
theorem oraDplong (d : Byte) : Statement (.oraDplong d) :=
  fun _ _ => of_place 0 7 rfl (by decide) rfl rfl
theorem phpImp : Statement .phpImp :=
  fun _ _ => of_place 0 8 rfl (by decide) rfl rfl
theorem oraImmM (k : Imm) : Statement (.oraImmM k) :=
  fun _ h => of_place 0 9 rfl (by decide) (imm_fits h).1 (congrArg Instr.oraImmM (imm_fits h).2)
theorem aslAcc : Statement .aslAcc :=
  fun _ _ => of_place 0 10 rfl (by decide) rfl rfl
theorem phdImp : Statement .phdImp :=
  fun _ _ => of_place 0 11 rfl (by decide) rfl rfl
theorem tsbAbs (a : Word) : Statement (.tsbAbs a) :=
  fun _ _ => of_place 0 12 rfl (by decide) rfl (congrArg Instr.tsbAbs (word_hi_lo a))
theorem oraAbs (a : Word) : Statement (.oraAbs a) :=
  fun _ _ => of_place 0 13 rfl (by decide) rfl (congrArg Instr.oraAbs (word_hi_lo a))
theorem aslAbs (a : Word) : Statement (.aslAbs a) :=
  fun _ _ => of_place 0 14 rfl (by decide) rfl (congrArg Instr.aslAbs (word_hi_lo a))
theorem oraLong (al : Addr) : Statement (.oraLong al) :=
  fun _ _ => of_place 0 15 rfl (by decide) rfl (congrArg Instr.oraLong (alBank_append_word al))
theorem bplRel8 (r : Byte) : Statement (.bplRel8 r) :=
  fun _ _ => of_place 1 0 rfl (by decide) rfl rfl
theorem oraDpindy (d : Byte) : Statement (.oraDpindy d) :=
  fun _ _ => of_place 1 1 rfl (by decide) rfl rfl
theorem oraDpind (d : Byte) : Statement (.oraDpind d) :=
  fun _ _ => of_place 1 2 rfl (by decide) rfl rfl
theorem oraSriy (d : Byte) : Statement (.oraSriy d) :=
  fun _ _ => of_place 1 3 rfl (by decide) rfl rfl
theorem trbDp (d : Byte) : Statement (.trbDp d) :=
  fun _ _ => of_place 1 4 rfl (by decide) rfl rfl
theorem oraDpx (d : Byte) : Statement (.oraDpx d) :=
  fun _ _ => of_place 1 5 rfl (by decide) rfl rfl
theorem aslDpx (d : Byte) : Statement (.aslDpx d) :=
  fun _ _ => of_place 1 6 rfl (by decide) rfl rfl
theorem oraDplongy (d : Byte) : Statement (.oraDplongy d) :=
  fun _ _ => of_place 1 7 rfl (by decide) rfl rfl
theorem clcImp : Statement .clcImp :=
  fun _ _ => of_place 1 8 rfl (by decide) rfl rfl
theorem oraAbsy (a : Word) : Statement (.oraAbsy a) :=
  fun _ _ => of_place 1 9 rfl (by decide) rfl (congrArg Instr.oraAbsy (word_hi_lo a))
theorem incAcc : Statement .incAcc :=
  fun _ _ => of_place 1 10 rfl (by decide) rfl rfl
theorem tcsImp : Statement .tcsImp :=
  fun _ _ => of_place 1 11 rfl (by decide) rfl rfl
theorem trbAbs (a : Word) : Statement (.trbAbs a) :=
  fun _ _ => of_place 1 12 rfl (by decide) rfl (congrArg Instr.trbAbs (word_hi_lo a))
theorem oraAbsx (a : Word) : Statement (.oraAbsx a) :=
  fun _ _ => of_place 1 13 rfl (by decide) rfl (congrArg Instr.oraAbsx (word_hi_lo a))
theorem aslAbsx (a : Word) : Statement (.aslAbsx a) :=
  fun _ _ => of_place 1 14 rfl (by decide) rfl (congrArg Instr.aslAbsx (word_hi_lo a))
theorem oraLongx (al : Addr) : Statement (.oraLongx al) :=
  fun _ _ => of_place 1 15 rfl (by decide) rfl (congrArg Instr.oraLongx (alBank_append_word al))
theorem jsrAbs (a : Word) : Statement (.jsrAbs a) :=
  fun _ _ => of_place 2 0 rfl (by decide) rfl (congrArg Instr.jsrAbs (word_hi_lo a))
theorem andDpxind (d : Byte) : Statement (.andDpxind d) :=
  fun _ _ => of_place 2 1 rfl (by decide) rfl rfl
theorem jslLong (al : Addr) : Statement (.jslLong al) :=
  fun _ _ => of_place 2 2 rfl (by decide) rfl (congrArg Instr.jslLong (alBank_append_word al))
theorem andSr (d : Byte) : Statement (.andSr d) :=
  fun _ _ => of_place 2 3 rfl (by decide) rfl rfl
theorem bitDp (d : Byte) : Statement (.bitDp d) :=
  fun _ _ => of_place 2 4 rfl (by decide) rfl rfl
theorem andDp (d : Byte) : Statement (.andDp d) :=
  fun _ _ => of_place 2 5 rfl (by decide) rfl rfl
theorem rolDp (d : Byte) : Statement (.rolDp d) :=
  fun _ _ => of_place 2 6 rfl (by decide) rfl rfl
theorem andDplong (d : Byte) : Statement (.andDplong d) :=
  fun _ _ => of_place 2 7 rfl (by decide) rfl rfl
theorem plpImp : Statement .plpImp :=
  fun _ _ => of_place 2 8 rfl (by decide) rfl rfl
theorem andImmM (k : Imm) : Statement (.andImmM k) :=
  fun _ h => of_place 2 9 rfl (by decide) (imm_fits h).1 (congrArg Instr.andImmM (imm_fits h).2)
theorem rolAcc : Statement .rolAcc :=
  fun _ _ => of_place 2 10 rfl (by decide) rfl rfl
theorem pldImp : Statement .pldImp :=
  fun _ _ => of_place 2 11 rfl (by decide) rfl rfl
theorem bitAbs (a : Word) : Statement (.bitAbs a) :=
  fun _ _ => of_place 2 12 rfl (by decide) rfl (congrArg Instr.bitAbs (word_hi_lo a))
theorem andAbs (a : Word) : Statement (.andAbs a) :=
  fun _ _ => of_place 2 13 rfl (by decide) rfl (congrArg Instr.andAbs (word_hi_lo a))
theorem rolAbs (a : Word) : Statement (.rolAbs a) :=
  fun _ _ => of_place 2 14 rfl (by decide) rfl (congrArg Instr.rolAbs (word_hi_lo a))
theorem andLong (al : Addr) : Statement (.andLong al) :=
  fun _ _ => of_place 2 15 rfl (by decide) rfl (congrArg Instr.andLong (alBank_append_word al))
theorem bmiRel8 (r : Byte) : Statement (.bmiRel8 r) :=
  fun _ _ => of_place 3 0 rfl (by decide) rfl rfl
theorem andDpindy (d : Byte) : Statement (.andDpindy d) :=
  fun _ _ => of_place 3 1 rfl (by decide) rfl rfl
theorem andDpind (d : Byte) : Statement (.andDpind d) :=
  fun _ _ => of_place 3 2 rfl (by decide) rfl rfl
theorem andSriy (d : Byte) : Statement (.andSriy d) :=
  fun _ _ => of_place 3 3 rfl (by decide) rfl rfl
theorem bitDpx (d : Byte) : Statement (.bitDpx d) :=
  fun _ _ => of_place 3 4 rfl (by decide) rfl rfl
theorem andDpx (d : Byte) : Statement (.andDpx d) :=
  fun _ _ => of_place 3 5 rfl (by decide) rfl rfl
theorem rolDpx (d : Byte) : Statement (.rolDpx d) :=
  fun _ _ => of_place 3 6 rfl (by decide) rfl rfl
theorem andDplongy (d : Byte) : Statement (.andDplongy d) :=
  fun _ _ => of_place 3 7 rfl (by decide) rfl rfl
theorem secImp : Statement .secImp :=
  fun _ _ => of_place 3 8 rfl (by decide) rfl rfl
theorem andAbsy (a : Word) : Statement (.andAbsy a) :=
  fun _ _ => of_place 3 9 rfl (by decide) rfl (congrArg Instr.andAbsy (word_hi_lo a))
theorem decAcc : Statement .decAcc :=
  fun _ _ => of_place 3 10 rfl (by decide) rfl rfl
theorem tscImp : Statement .tscImp :=
  fun _ _ => of_place 3 11 rfl (by decide) rfl rfl
theorem bitAbsx (a : Word) : Statement (.bitAbsx a) :=
  fun _ _ => of_place 3 12 rfl (by decide) rfl (congrArg Instr.bitAbsx (word_hi_lo a))
theorem andAbsx (a : Word) : Statement (.andAbsx a) :=
  fun _ _ => of_place 3 13 rfl (by decide) rfl (congrArg Instr.andAbsx (word_hi_lo a))
theorem rolAbsx (a : Word) : Statement (.rolAbsx a) :=
  fun _ _ => of_place 3 14 rfl (by decide) rfl (congrArg Instr.rolAbsx (word_hi_lo a))
theorem andLongx (al : Addr) : Statement (.andLongx al) :=
  fun _ _ => of_place 3 15 rfl (by decide) rfl (congrArg Instr.andLongx (alBank_append_word al))
theorem rtiImp : Statement .rtiImp :=
  fun _ _ => of_place 4 0 rfl (by decide) rfl rfl
theorem eorDpxind (d : Byte) : Statement (.eorDpxind d) :=
  fun _ _ => of_place 4 1 rfl (by decide) rfl rfl
theorem wdmImm8 (k : Byte) : Statement (.wdmImm8 k) :=
  fun _ _ => of_place 4 2 rfl (by decide) rfl rfl
theorem eorSr (d : Byte) : Statement (.eorSr d) :=
  fun _ _ => of_place 4 3 rfl (by decide) rfl rfl
theorem mvpBlk (dst : Byte) (src : Byte) : Statement (.mvpBlk dst src) :=
  fun _ _ => of_place 4 4 rfl (by decide) rfl rfl
theorem eorDp (d : Byte) : Statement (.eorDp d) :=
  fun _ _ => of_place 4 5 rfl (by decide) rfl rfl
theorem lsrDp (d : Byte) : Statement (.lsrDp d) :=
  fun _ _ => of_place 4 6 rfl (by decide) rfl rfl
theorem eorDplong (d : Byte) : Statement (.eorDplong d) :=
  fun _ _ => of_place 4 7 rfl (by decide) rfl rfl
theorem phaImp : Statement .phaImp :=
  fun _ _ => of_place 4 8 rfl (by decide) rfl rfl
theorem eorImmM (k : Imm) : Statement (.eorImmM k) :=
  fun _ h => of_place 4 9 rfl (by decide) (imm_fits h).1 (congrArg Instr.eorImmM (imm_fits h).2)
theorem lsrAcc : Statement .lsrAcc :=
  fun _ _ => of_place 4 10 rfl (by decide) rfl rfl
theorem phkImp : Statement .phkImp :=
  fun _ _ => of_place 4 11 rfl (by decide) rfl rfl
theorem jmpAbs (a : Word) : Statement (.jmpAbs a) :=
  fun _ _ => of_place 4 12 rfl (by decide) rfl (congrArg Instr.jmpAbs (word_hi_lo a))
theorem eorAbs (a : Word) : Statement (.eorAbs a) :=
  fun _ _ => of_place 4 13 rfl (by decide) rfl (congrArg Instr.eorAbs (word_hi_lo a))
theorem lsrAbs (a : Word) : Statement (.lsrAbs a) :=
  fun _ _ => of_place 4 14 rfl (by decide) rfl (congrArg Instr.lsrAbs (word_hi_lo a))
theorem eorLong (al : Addr) : Statement (.eorLong al) :=
  fun _ _ => of_place 4 15 rfl (by decide) rfl (congrArg Instr.eorLong (alBank_append_word al))
theorem bvcRel8 (r : Byte) : Statement (.bvcRel8 r) :=
  fun _ _ => of_place 5 0 rfl (by decide) rfl rfl
theorem eorDpindy (d : Byte) : Statement (.eorDpindy d) :=
  fun _ _ => of_place 5 1 rfl (by decide) rfl rfl
theorem eorDpind (d : Byte) : Statement (.eorDpind d) :=
  fun _ _ => of_place 5 2 rfl (by decide) rfl rfl
theorem eorSriy (d : Byte) : Statement (.eorSriy d) :=
  fun _ _ => of_place 5 3 rfl (by decide) rfl rfl
theorem mvnBlk (dst : Byte) (src : Byte) : Statement (.mvnBlk dst src) :=
  fun _ _ => of_place 5 4 rfl (by decide) rfl rfl
theorem eorDpx (d : Byte) : Statement (.eorDpx d) :=
  fun _ _ => of_place 5 5 rfl (by decide) rfl rfl
theorem lsrDpx (d : Byte) : Statement (.lsrDpx d) :=
  fun _ _ => of_place 5 6 rfl (by decide) rfl rfl
theorem eorDplongy (d : Byte) : Statement (.eorDplongy d) :=
  fun _ _ => of_place 5 7 rfl (by decide) rfl rfl
theorem cliImp : Statement .cliImp :=
  fun _ _ => of_place 5 8 rfl (by decide) rfl rfl
theorem eorAbsy (a : Word) : Statement (.eorAbsy a) :=
  fun _ _ => of_place 5 9 rfl (by decide) rfl (congrArg Instr.eorAbsy (word_hi_lo a))
theorem phyImp : Statement .phyImp :=
  fun _ _ => of_place 5 10 rfl (by decide) rfl rfl
theorem tcdImp : Statement .tcdImp :=
  fun _ _ => of_place 5 11 rfl (by decide) rfl rfl
theorem jmlLong (al : Addr) : Statement (.jmlLong al) :=
  fun _ _ => of_place 5 12 rfl (by decide) rfl (congrArg Instr.jmlLong (alBank_append_word al))
theorem eorAbsx (a : Word) : Statement (.eorAbsx a) :=
  fun _ _ => of_place 5 13 rfl (by decide) rfl (congrArg Instr.eorAbsx (word_hi_lo a))
theorem lsrAbsx (a : Word) : Statement (.lsrAbsx a) :=
  fun _ _ => of_place 5 14 rfl (by decide) rfl (congrArg Instr.lsrAbsx (word_hi_lo a))
theorem eorLongx (al : Addr) : Statement (.eorLongx al) :=
  fun _ _ => of_place 5 15 rfl (by decide) rfl (congrArg Instr.eorLongx (alBank_append_word al))
theorem rtsImp : Statement .rtsImp :=
  fun _ _ => of_place 6 0 rfl (by decide) rfl rfl
theorem adcDpxind (d : Byte) : Statement (.adcDpxind d) :=
  fun _ _ => of_place 6 1 rfl (by decide) rfl rfl
theorem perRel16 (r : Word) : Statement (.perRel16 r) :=
  fun _ _ => of_place 6 2 rfl (by decide) rfl (congrArg Instr.perRel16 (word_hi_lo r))
theorem adcSr (d : Byte) : Statement (.adcSr d) :=
  fun _ _ => of_place 6 3 rfl (by decide) rfl rfl
theorem stzDp (d : Byte) : Statement (.stzDp d) :=
  fun _ _ => of_place 6 4 rfl (by decide) rfl rfl
theorem adcDp (d : Byte) : Statement (.adcDp d) :=
  fun _ _ => of_place 6 5 rfl (by decide) rfl rfl
theorem rorDp (d : Byte) : Statement (.rorDp d) :=
  fun _ _ => of_place 6 6 rfl (by decide) rfl rfl
theorem adcDplong (d : Byte) : Statement (.adcDplong d) :=
  fun _ _ => of_place 6 7 rfl (by decide) rfl rfl
theorem plaImp : Statement .plaImp :=
  fun _ _ => of_place 6 8 rfl (by decide) rfl rfl
theorem adcImmM (k : Imm) : Statement (.adcImmM k) :=
  fun _ h => of_place 6 9 rfl (by decide) (imm_fits h).1 (congrArg Instr.adcImmM (imm_fits h).2)
theorem rorAcc : Statement .rorAcc :=
  fun _ _ => of_place 6 10 rfl (by decide) rfl rfl
theorem rtlImp : Statement .rtlImp :=
  fun _ _ => of_place 6 11 rfl (by decide) rfl rfl
theorem jmpAbsind (a : Word) : Statement (.jmpAbsind a) :=
  fun _ _ => of_place 6 12 rfl (by decide) rfl (congrArg Instr.jmpAbsind (word_hi_lo a))
theorem adcAbs (a : Word) : Statement (.adcAbs a) :=
  fun _ _ => of_place 6 13 rfl (by decide) rfl (congrArg Instr.adcAbs (word_hi_lo a))
theorem rorAbs (a : Word) : Statement (.rorAbs a) :=
  fun _ _ => of_place 6 14 rfl (by decide) rfl (congrArg Instr.rorAbs (word_hi_lo a))
theorem adcLong (al : Addr) : Statement (.adcLong al) :=
  fun _ _ => of_place 6 15 rfl (by decide) rfl (congrArg Instr.adcLong (alBank_append_word al))
theorem bvsRel8 (r : Byte) : Statement (.bvsRel8 r) :=
  fun _ _ => of_place 7 0 rfl (by decide) rfl rfl
theorem adcDpindy (d : Byte) : Statement (.adcDpindy d) :=
  fun _ _ => of_place 7 1 rfl (by decide) rfl rfl
theorem adcDpind (d : Byte) : Statement (.adcDpind d) :=
  fun _ _ => of_place 7 2 rfl (by decide) rfl rfl
theorem adcSriy (d : Byte) : Statement (.adcSriy d) :=
  fun _ _ => of_place 7 3 rfl (by decide) rfl rfl
theorem stzDpx (d : Byte) : Statement (.stzDpx d) :=
  fun _ _ => of_place 7 4 rfl (by decide) rfl rfl
theorem adcDpx (d : Byte) : Statement (.adcDpx d) :=
  fun _ _ => of_place 7 5 rfl (by decide) rfl rfl
theorem rorDpx (d : Byte) : Statement (.rorDpx d) :=
  fun _ _ => of_place 7 6 rfl (by decide) rfl rfl
theorem adcDplongy (d : Byte) : Statement (.adcDplongy d) :=
  fun _ _ => of_place 7 7 rfl (by decide) rfl rfl
theorem seiImp : Statement .seiImp :=
  fun _ _ => of_place 7 8 rfl (by decide) rfl rfl
theorem adcAbsy (a : Word) : Statement (.adcAbsy a) :=
  fun _ _ => of_place 7 9 rfl (by decide) rfl (congrArg Instr.adcAbsy (word_hi_lo a))
theorem plyImp : Statement .plyImp :=
  fun _ _ => of_place 7 10 rfl (by decide) rfl rfl
theorem tdcImp : Statement .tdcImp :=
  fun _ _ => of_place 7 11 rfl (by decide) rfl rfl
theorem jmpAbsxind (a : Word) : Statement (.jmpAbsxind a) :=
  fun _ _ => of_place 7 12 rfl (by decide) rfl (congrArg Instr.jmpAbsxind (word_hi_lo a))
theorem adcAbsx (a : Word) : Statement (.adcAbsx a) :=
  fun _ _ => of_place 7 13 rfl (by decide) rfl (congrArg Instr.adcAbsx (word_hi_lo a))
theorem rorAbsx (a : Word) : Statement (.rorAbsx a) :=
  fun _ _ => of_place 7 14 rfl (by decide) rfl (congrArg Instr.rorAbsx (word_hi_lo a))
theorem adcLongx (al : Addr) : Statement (.adcLongx al) :=
  fun _ _ => of_place 7 15 rfl (by decide) rfl (congrArg Instr.adcLongx (alBank_append_word al))
theorem braRel8 (r : Byte) : Statement (.braRel8 r) :=
  fun _ _ => of_place 8 0 rfl (by decide) rfl rfl
theorem staDpxind (d : Byte) : Statement (.staDpxind d) :=
  fun _ _ => of_place 8 1 rfl (by decide) rfl rfl
theorem brlRel16 (r : Word) : Statement (.brlRel16 r) :=
  fun _ _ => of_place 8 2 rfl (by decide) rfl (congrArg Instr.brlRel16 (word_hi_lo r))
theorem staSr (d : Byte) : Statement (.staSr d) :=
  fun _ _ => of_place 8 3 rfl (by decide) rfl rfl
theorem styDp (d : Byte) : Statement (.styDp d) :=
  fun _ _ => of_place 8 4 rfl (by decide) rfl rfl
theorem staDp (d : Byte) : Statement (.staDp d) :=
  fun _ _ => of_place 8 5 rfl (by decide) rfl rfl
theorem stxDp (d : Byte) : Statement (.stxDp d) :=
  fun _ _ => of_place 8 6 rfl (by decide) rfl rfl
theorem staDplong (d : Byte) : Statement (.staDplong d) :=
  fun _ _ => of_place 8 7 rfl (by decide) rfl rfl
theorem deyImp : Statement .deyImp :=
  fun _ _ => of_place 8 8 rfl (by decide) rfl rfl
theorem bitImmM (k : Imm) : Statement (.bitImmM k) :=
  fun _ h => of_place 8 9 rfl (by decide) (imm_fits h).1 (congrArg Instr.bitImmM (imm_fits h).2)
theorem txaImp : Statement .txaImp :=
  fun _ _ => of_place 8 10 rfl (by decide) rfl rfl
theorem phbImp : Statement .phbImp :=
  fun _ _ => of_place 8 11 rfl (by decide) rfl rfl
theorem styAbs (a : Word) : Statement (.styAbs a) :=
  fun _ _ => of_place 8 12 rfl (by decide) rfl (congrArg Instr.styAbs (word_hi_lo a))
theorem staAbs (a : Word) : Statement (.staAbs a) :=
  fun _ _ => of_place 8 13 rfl (by decide) rfl (congrArg Instr.staAbs (word_hi_lo a))
theorem stxAbs (a : Word) : Statement (.stxAbs a) :=
  fun _ _ => of_place 8 14 rfl (by decide) rfl (congrArg Instr.stxAbs (word_hi_lo a))
theorem staLong (al : Addr) : Statement (.staLong al) :=
  fun _ _ => of_place 8 15 rfl (by decide) rfl (congrArg Instr.staLong (alBank_append_word al))
theorem bccRel8 (r : Byte) : Statement (.bccRel8 r) :=
  fun _ _ => of_place 9 0 rfl (by decide) rfl rfl
theorem staDpindy (d : Byte) : Statement (.staDpindy d) :=
  fun _ _ => of_place 9 1 rfl (by decide) rfl rfl
theorem staDpind (d : Byte) : Statement (.staDpind d) :=
  fun _ _ => of_place 9 2 rfl (by decide) rfl rfl
theorem staSriy (d : Byte) : Statement (.staSriy d) :=
  fun _ _ => of_place 9 3 rfl (by decide) rfl rfl
theorem styDpx (d : Byte) : Statement (.styDpx d) :=
  fun _ _ => of_place 9 4 rfl (by decide) rfl rfl
theorem staDpx (d : Byte) : Statement (.staDpx d) :=
  fun _ _ => of_place 9 5 rfl (by decide) rfl rfl
theorem stxDpy (d : Byte) : Statement (.stxDpy d) :=
  fun _ _ => of_place 9 6 rfl (by decide) rfl rfl
theorem staDplongy (d : Byte) : Statement (.staDplongy d) :=
  fun _ _ => of_place 9 7 rfl (by decide) rfl rfl
theorem tyaImp : Statement .tyaImp :=
  fun _ _ => of_place 9 8 rfl (by decide) rfl rfl
theorem staAbsy (a : Word) : Statement (.staAbsy a) :=
  fun _ _ => of_place 9 9 rfl (by decide) rfl (congrArg Instr.staAbsy (word_hi_lo a))
theorem txsImp : Statement .txsImp :=
  fun _ _ => of_place 9 10 rfl (by decide) rfl rfl
theorem txyImp : Statement .txyImp :=
  fun _ _ => of_place 9 11 rfl (by decide) rfl rfl
theorem stzAbs (a : Word) : Statement (.stzAbs a) :=
  fun _ _ => of_place 9 12 rfl (by decide) rfl (congrArg Instr.stzAbs (word_hi_lo a))
theorem staAbsx (a : Word) : Statement (.staAbsx a) :=
  fun _ _ => of_place 9 13 rfl (by decide) rfl (congrArg Instr.staAbsx (word_hi_lo a))
theorem stzAbsx (a : Word) : Statement (.stzAbsx a) :=
  fun _ _ => of_place 9 14 rfl (by decide) rfl (congrArg Instr.stzAbsx (word_hi_lo a))
theorem staLongx (al : Addr) : Statement (.staLongx al) :=
  fun _ _ => of_place 9 15 rfl (by decide) rfl (congrArg Instr.staLongx (alBank_append_word al))
theorem ldyImmX (k : Imm) : Statement (.ldyImmX k) :=
  fun _ h => of_place 10 0 rfl (by decide) (imm_fits h).1 (congrArg Instr.ldyImmX (imm_fits h).2)
theorem ldaDpxind (d : Byte) : Statement (.ldaDpxind d) :=
  fun _ _ => of_place 10 1 rfl (by decide) rfl rfl
theorem ldxImmX (k : Imm) : Statement (.ldxImmX k) :=
  fun _ h => of_place 10 2 rfl (by decide) (imm_fits h).1 (congrArg Instr.ldxImmX (imm_fits h).2)
theorem ldaSr (d : Byte) : Statement (.ldaSr d) :=
  fun _ _ => of_place 10 3 rfl (by decide) rfl rfl
theorem ldyDp (d : Byte) : Statement (.ldyDp d) :=
  fun _ _ => of_place 10 4 rfl (by decide) rfl rfl
theorem ldaDp (d : Byte) : Statement (.ldaDp d) :=
  fun _ _ => of_place 10 5 rfl (by decide) rfl rfl
theorem ldxDp (d : Byte) : Statement (.ldxDp d) :=
  fun _ _ => of_place 10 6 rfl (by decide) rfl rfl
theorem ldaDplong (d : Byte) : Statement (.ldaDplong d) :=
  fun _ _ => of_place 10 7 rfl (by decide) rfl rfl
theorem tayImp : Statement .tayImp :=
  fun _ _ => of_place 10 8 rfl (by decide) rfl rfl
theorem ldaImmM (k : Imm) : Statement (.ldaImmM k) :=
  fun _ h => of_place 10 9 rfl (by decide) (imm_fits h).1 (congrArg Instr.ldaImmM (imm_fits h).2)
theorem taxImp : Statement .taxImp :=
  fun _ _ => of_place 10 10 rfl (by decide) rfl rfl
theorem plbImp : Statement .plbImp :=
  fun _ _ => of_place 10 11 rfl (by decide) rfl rfl
theorem ldyAbs (a : Word) : Statement (.ldyAbs a) :=
  fun _ _ => of_place 10 12 rfl (by decide) rfl (congrArg Instr.ldyAbs (word_hi_lo a))
theorem ldaAbs (a : Word) : Statement (.ldaAbs a) :=
  fun _ _ => of_place 10 13 rfl (by decide) rfl (congrArg Instr.ldaAbs (word_hi_lo a))
theorem ldxAbs (a : Word) : Statement (.ldxAbs a) :=
  fun _ _ => of_place 10 14 rfl (by decide) rfl (congrArg Instr.ldxAbs (word_hi_lo a))
theorem ldaLong (al : Addr) : Statement (.ldaLong al) :=
  fun _ _ => of_place 10 15 rfl (by decide) rfl (congrArg Instr.ldaLong (alBank_append_word al))
theorem bcsRel8 (r : Byte) : Statement (.bcsRel8 r) :=
  fun _ _ => of_place 11 0 rfl (by decide) rfl rfl
theorem ldaDpindy (d : Byte) : Statement (.ldaDpindy d) :=
  fun _ _ => of_place 11 1 rfl (by decide) rfl rfl
theorem ldaDpind (d : Byte) : Statement (.ldaDpind d) :=
  fun _ _ => of_place 11 2 rfl (by decide) rfl rfl
theorem ldaSriy (d : Byte) : Statement (.ldaSriy d) :=
  fun _ _ => of_place 11 3 rfl (by decide) rfl rfl
theorem ldyDpx (d : Byte) : Statement (.ldyDpx d) :=
  fun _ _ => of_place 11 4 rfl (by decide) rfl rfl
theorem ldaDpx (d : Byte) : Statement (.ldaDpx d) :=
  fun _ _ => of_place 11 5 rfl (by decide) rfl rfl
theorem ldxDpy (d : Byte) : Statement (.ldxDpy d) :=
  fun _ _ => of_place 11 6 rfl (by decide) rfl rfl
theorem ldaDplongy (d : Byte) : Statement (.ldaDplongy d) :=
  fun _ _ => of_place 11 7 rfl (by decide) rfl rfl
theorem clvImp : Statement .clvImp :=
  fun _ _ => of_place 11 8 rfl (by decide) rfl rfl
theorem ldaAbsy (a : Word) : Statement (.ldaAbsy a) :=
  fun _ _ => of_place 11 9 rfl (by decide) rfl (congrArg Instr.ldaAbsy (word_hi_lo a))
theorem tsxImp : Statement .tsxImp :=
  fun _ _ => of_place 11 10 rfl (by decide) rfl rfl
theorem tyxImp : Statement .tyxImp :=
  fun _ _ => of_place 11 11 rfl (by decide) rfl rfl
theorem ldyAbsx (a : Word) : Statement (.ldyAbsx a) :=
  fun _ _ => of_place 11 12 rfl (by decide) rfl (congrArg Instr.ldyAbsx (word_hi_lo a))
theorem ldaAbsx (a : Word) : Statement (.ldaAbsx a) :=
  fun _ _ => of_place 11 13 rfl (by decide) rfl (congrArg Instr.ldaAbsx (word_hi_lo a))
theorem ldxAbsy (a : Word) : Statement (.ldxAbsy a) :=
  fun _ _ => of_place 11 14 rfl (by decide) rfl (congrArg Instr.ldxAbsy (word_hi_lo a))
theorem ldaLongx (al : Addr) : Statement (.ldaLongx al) :=
  fun _ _ => of_place 11 15 rfl (by decide) rfl (congrArg Instr.ldaLongx (alBank_append_word al))
theorem cpyImmX (k : Imm) : Statement (.cpyImmX k) :=
  fun _ h => of_place 12 0 rfl (by decide) (imm_fits h).1 (congrArg Instr.cpyImmX (imm_fits h).2)
theorem cmpDpxind (d : Byte) : Statement (.cmpDpxind d) :=
  fun _ _ => of_place 12 1 rfl (by decide) rfl rfl
theorem repImm8 (k : Byte) : Statement (.repImm8 k) :=
  fun _ _ => of_place 12 2 rfl (by decide) rfl rfl
theorem cmpSr (d : Byte) : Statement (.cmpSr d) :=
  fun _ _ => of_place 12 3 rfl (by decide) rfl rfl
theorem cpyDp (d : Byte) : Statement (.cpyDp d) :=
  fun _ _ => of_place 12 4 rfl (by decide) rfl rfl
theorem cmpDp (d : Byte) : Statement (.cmpDp d) :=
  fun _ _ => of_place 12 5 rfl (by decide) rfl rfl
theorem decDp (d : Byte) : Statement (.decDp d) :=
  fun _ _ => of_place 12 6 rfl (by decide) rfl rfl
theorem cmpDplong (d : Byte) : Statement (.cmpDplong d) :=
  fun _ _ => of_place 12 7 rfl (by decide) rfl rfl
theorem inyImp : Statement .inyImp :=
  fun _ _ => of_place 12 8 rfl (by decide) rfl rfl
theorem cmpImmM (k : Imm) : Statement (.cmpImmM k) :=
  fun _ h => of_place 12 9 rfl (by decide) (imm_fits h).1 (congrArg Instr.cmpImmM (imm_fits h).2)
theorem dexImp : Statement .dexImp :=
  fun _ _ => of_place 12 10 rfl (by decide) rfl rfl
theorem waiImp : Statement .waiImp :=
  fun _ _ => of_place 12 11 rfl (by decide) rfl rfl
theorem cpyAbs (a : Word) : Statement (.cpyAbs a) :=
  fun _ _ => of_place 12 12 rfl (by decide) rfl (congrArg Instr.cpyAbs (word_hi_lo a))
theorem cmpAbs (a : Word) : Statement (.cmpAbs a) :=
  fun _ _ => of_place 12 13 rfl (by decide) rfl (congrArg Instr.cmpAbs (word_hi_lo a))
theorem decAbs (a : Word) : Statement (.decAbs a) :=
  fun _ _ => of_place 12 14 rfl (by decide) rfl (congrArg Instr.decAbs (word_hi_lo a))
theorem cmpLong (al : Addr) : Statement (.cmpLong al) :=
  fun _ _ => of_place 12 15 rfl (by decide) rfl (congrArg Instr.cmpLong (alBank_append_word al))
theorem bneRel8 (r : Byte) : Statement (.bneRel8 r) :=
  fun _ _ => of_place 13 0 rfl (by decide) rfl rfl
theorem cmpDpindy (d : Byte) : Statement (.cmpDpindy d) :=
  fun _ _ => of_place 13 1 rfl (by decide) rfl rfl
theorem cmpDpind (d : Byte) : Statement (.cmpDpind d) :=
  fun _ _ => of_place 13 2 rfl (by decide) rfl rfl
theorem cmpSriy (d : Byte) : Statement (.cmpSriy d) :=
  fun _ _ => of_place 13 3 rfl (by decide) rfl rfl
theorem peiDpind (d : Byte) : Statement (.peiDpind d) :=
  fun _ _ => of_place 13 4 rfl (by decide) rfl rfl
theorem cmpDpx (d : Byte) : Statement (.cmpDpx d) :=
  fun _ _ => of_place 13 5 rfl (by decide) rfl rfl
theorem decDpx (d : Byte) : Statement (.decDpx d) :=
  fun _ _ => of_place 13 6 rfl (by decide) rfl rfl
theorem cmpDplongy (d : Byte) : Statement (.cmpDplongy d) :=
  fun _ _ => of_place 13 7 rfl (by decide) rfl rfl
theorem cldImp : Statement .cldImp :=
  fun _ _ => of_place 13 8 rfl (by decide) rfl rfl
theorem cmpAbsy (a : Word) : Statement (.cmpAbsy a) :=
  fun _ _ => of_place 13 9 rfl (by decide) rfl (congrArg Instr.cmpAbsy (word_hi_lo a))
theorem phxImp : Statement .phxImp :=
  fun _ _ => of_place 13 10 rfl (by decide) rfl rfl
theorem stpImp : Statement .stpImp :=
  fun _ _ => of_place 13 11 rfl (by decide) rfl rfl
theorem jmlAbslongind (a : Word) : Statement (.jmlAbslongind a) :=
  fun _ _ => of_place 13 12 rfl (by decide) rfl (congrArg Instr.jmlAbslongind (word_hi_lo a))
theorem cmpAbsx (a : Word) : Statement (.cmpAbsx a) :=
  fun _ _ => of_place 13 13 rfl (by decide) rfl (congrArg Instr.cmpAbsx (word_hi_lo a))
theorem decAbsx (a : Word) : Statement (.decAbsx a) :=
  fun _ _ => of_place 13 14 rfl (by decide) rfl (congrArg Instr.decAbsx (word_hi_lo a))
theorem cmpLongx (al : Addr) : Statement (.cmpLongx al) :=
  fun _ _ => of_place 13 15 rfl (by decide) rfl (congrArg Instr.cmpLongx (alBank_append_word al))
theorem cpxImmX (k : Imm) : Statement (.cpxImmX k) :=
  fun _ h => of_place 14 0 rfl (by decide) (imm_fits h).1 (congrArg Instr.cpxImmX (imm_fits h).2)
theorem sbcDpxind (d : Byte) : Statement (.sbcDpxind d) :=
  fun _ _ => of_place 14 1 rfl (by decide) rfl rfl
theorem sepImm8 (k : Byte) : Statement (.sepImm8 k) :=
  fun _ _ => of_place 14 2 rfl (by decide) rfl rfl
theorem sbcSr (d : Byte) : Statement (.sbcSr d) :=
  fun _ _ => of_place 14 3 rfl (by decide) rfl rfl
theorem cpxDp (d : Byte) : Statement (.cpxDp d) :=
  fun _ _ => of_place 14 4 rfl (by decide) rfl rfl
theorem sbcDp (d : Byte) : Statement (.sbcDp d) :=
  fun _ _ => of_place 14 5 rfl (by decide) rfl rfl
theorem incDp (d : Byte) : Statement (.incDp d) :=
  fun _ _ => of_place 14 6 rfl (by decide) rfl rfl
theorem sbcDplong (d : Byte) : Statement (.sbcDplong d) :=
  fun _ _ => of_place 14 7 rfl (by decide) rfl rfl
theorem inxImp : Statement .inxImp :=
  fun _ _ => of_place 14 8 rfl (by decide) rfl rfl
theorem sbcImmM (k : Imm) : Statement (.sbcImmM k) :=
  fun _ h => of_place 14 9 rfl (by decide) (imm_fits h).1 (congrArg Instr.sbcImmM (imm_fits h).2)
theorem nopImp : Statement .nopImp :=
  fun _ _ => of_place 14 10 rfl (by decide) rfl rfl
theorem xbaImp : Statement .xbaImp :=
  fun _ _ => of_place 14 11 rfl (by decide) rfl rfl
theorem cpxAbs (a : Word) : Statement (.cpxAbs a) :=
  fun _ _ => of_place 14 12 rfl (by decide) rfl (congrArg Instr.cpxAbs (word_hi_lo a))
theorem sbcAbs (a : Word) : Statement (.sbcAbs a) :=
  fun _ _ => of_place 14 13 rfl (by decide) rfl (congrArg Instr.sbcAbs (word_hi_lo a))
theorem incAbs (a : Word) : Statement (.incAbs a) :=
  fun _ _ => of_place 14 14 rfl (by decide) rfl (congrArg Instr.incAbs (word_hi_lo a))
theorem sbcLong (al : Addr) : Statement (.sbcLong al) :=
  fun _ _ => of_place 14 15 rfl (by decide) rfl (congrArg Instr.sbcLong (alBank_append_word al))
theorem beqRel8 (r : Byte) : Statement (.beqRel8 r) :=
  fun _ _ => of_place 15 0 rfl (by decide) rfl rfl
theorem sbcDpindy (d : Byte) : Statement (.sbcDpindy d) :=
  fun _ _ => of_place 15 1 rfl (by decide) rfl rfl
theorem sbcDpind (d : Byte) : Statement (.sbcDpind d) :=
  fun _ _ => of_place 15 2 rfl (by decide) rfl rfl
theorem sbcSriy (d : Byte) : Statement (.sbcSriy d) :=
  fun _ _ => of_place 15 3 rfl (by decide) rfl rfl
theorem peaImm16 (v : Word) : Statement (.peaImm16 v) :=
  fun _ _ => of_place 15 4 rfl (by decide) rfl (congrArg Instr.peaImm16 (word_hi_lo v))
theorem sbcDpx (d : Byte) : Statement (.sbcDpx d) :=
  fun _ _ => of_place 15 5 rfl (by decide) rfl rfl
theorem incDpx (d : Byte) : Statement (.incDpx d) :=
  fun _ _ => of_place 15 6 rfl (by decide) rfl rfl
theorem sbcDplongy (d : Byte) : Statement (.sbcDplongy d) :=
  fun _ _ => of_place 15 7 rfl (by decide) rfl rfl
theorem sedImp : Statement .sedImp :=
  fun _ _ => of_place 15 8 rfl (by decide) rfl rfl
theorem sbcAbsy (a : Word) : Statement (.sbcAbsy a) :=
  fun _ _ => of_place 15 9 rfl (by decide) rfl (congrArg Instr.sbcAbsy (word_hi_lo a))
theorem plxImp : Statement .plxImp :=
  fun _ _ => of_place 15 10 rfl (by decide) rfl rfl
theorem xceImp : Statement .xceImp :=
  fun _ _ => of_place 15 11 rfl (by decide) rfl rfl
theorem jsrAbsxind (a : Word) : Statement (.jsrAbsxind a) :=
  fun _ _ => of_place 15 12 rfl (by decide) rfl (congrArg Instr.jsrAbsxind (word_hi_lo a))
theorem sbcAbsx (a : Word) : Statement (.sbcAbsx a) :=
  fun _ _ => of_place 15 13 rfl (by decide) rfl (congrArg Instr.sbcAbsx (word_hi_lo a))
theorem incAbsx (a : Word) : Statement (.incAbsx a) :=
  fun _ _ => of_place 15 14 rfl (by decide) rfl (congrArg Instr.incAbsx (word_hi_lo a))
theorem sbcLongx (al : Addr) : Statement (.sbcLongx al) :=
  fun _ _ => of_place 15 15 rfl (by decide) rfl (congrArg Instr.sbcLongx (alBank_append_word al))

end Sys2Proof.Laws.Encoding
end

