-- ==== Sys2Proof/Tests/Slice0.lean ====
section
/-! SUPPORT. The model's own tests: ill-formed terms that WellFormed refuses, words decoded bit by bit from the
encodings of spec/30_encoding.md, vectors of spec/95_test_vectors.md (each named after its vector), and one state
that meets the hypotheses of each statement that has some. Expected values are the spec's, not the model's. -/

namespace Sys2Proof.Tests

open Sys2Proof.Machine Sys2Proof.Safety

/-- The core as after `reset` with `code` at PBR:8000, PC there, and the listed bytes in memory. -/
def startIn (bank : Byte) (code : List Byte) (cells : List (Nat × Byte)) : State :=
  let m := cells.foldl (fun m c => Memory.write m c.1 c.2) []
  { State.reset with pbr := bank, pc := 0x8000, trace := [], mem := m }.placeBytes code

/-- The same in bank $00. -/
def start (code : List Byte) (cells : List (Nat × Byte)) : State := startIn 0x00 code cells

/-- The state after one step. -/
def after (s : State) : State :=
  match step s with
  | .next t => t
  | .fault _ => s
  | .refused _ => s

/-- The state after one instruction. -/
def ran (i : Instr) (s : State) : State :=
  match exec i s with
  | .next t => t
  | .fault _ => s
  | .refused _ => s

/-- A core in emulation mode, with LDA #$42 at PC. -/
def emu : State := { start [0xA9, 0x42] [(0x0010, 0xFF), (0x01FF, 0x80)] with c := 0x1234, x := 0x0080, y := 0x00FF }

/-- A core in native mode with both widths 16, S and D at the edges of bank $00, and LDA #$8042 at PC. -/
def wide : State :=
  { start [0xA9, 0x42, 0x80] [(0x0010, 0xFF)] with
    e := false, p := 0x00, c := 0x1234, x := 0xFFFF, y := 0x8001, sp := 0x0000, d := 0xFFFF, dbr := 0x7E }

/-- The same with 8-bit widths, the policy Zero and the index high bytes clear. -/
def narrow : State :=
  { wide with p := 0x30, x := 0x00FF, y := 0x0001, params := { Config.defaultParams with indexNarrow := .zero } }

/-! ### WellFormed refuses the terms that no fetch gives -/

/-- R102: at P.M = 1 an `imm_m` operand is one byte. -/
theorem test_wf_refuses_wide_imm_m : Instr.wf ⟨.w8, .w16⟩ (.adcImmM (.w16 0x0042)) = false := by decide

/-- R102: at P.M = 0 an `imm_m` operand is two bytes. -/
theorem test_wf_refuses_narrow_imm_m : Instr.wf ⟨.w16, .w8⟩ (.bitImmM (.w8 0x42)) = false := by decide

/-- R102: at P.X = 1 an `imm_x` operand is one byte. -/
theorem test_wf_refuses_wide_imm_x : Instr.wf ⟨.w16, .w8⟩ (.cpxImmX (.w16 0x0042)) = false := by decide

/-- R102: at P.X = 0 an `imm_x` operand is two bytes. -/
theorem test_wf_refuses_narrow_imm_x : Instr.wf ⟨.w8, .w16⟩ (.ldyImmX (.w8 0x42)) = false := by decide

/-! ### Words written out from R101, R103 to R107 and the opcode map R109 -/

/-- 42_load_store_transfer: LDA (d),Y is 1011 0001; STA al,X is 1001 1111, bank byte last; TXY is 1001 1011. -/
theorem test_decode_load_store :
    decode ⟨.w8, .w8⟩ [0b10110001, 0x20] = .ok (.ldaDpindy 0x20, []) ∧
    decode ⟨.w8, .w8⟩ [0b10011111, 0x56, 0x34, 0x12] = .ok (.staLongx 0x123456, []) ∧
    decode ⟨.w8, .w8⟩ [0b10011011, 0xFF] = .ok (.txyImp, [0xFF]) := by decide

/-- 43_arith_logic: SBC #const is 1110 1001, as long as P.M says; TRB a is 0001 1100; INC A is 0001 1010. -/
theorem test_decode_arith :
    decode ⟨.w16, .w8⟩ [0b11101001, 0x01, 0x80] = .ok (.sbcImmM (.w16 0x8001), []) ∧
    decode ⟨.w8, .w16⟩ [0b11101001, 0x01, 0x80] = .ok (.sbcImmM (.w8 0x01), [0x80]) ∧
    decode ⟨.w8, .w8⟩ [0b00011100, 0x34, 0x12] = .ok (.trbAbs 0x1234, []) ∧
    decode ⟨.w8, .w8⟩ [0b00011010] = .ok (.incAcc, []) := by decide

/-- 44_mode_flags: REP is 1100 0010, one operand byte at every width; XCE is 1111 1011. -/
theorem test_decode_mode_flags :
    decode ⟨.w16, .w16⟩ [0b11000010, 0x30, 0x00] = .ok (.repImm8 0x30, [0x00]) ∧
    decode ⟨.w16, .w16⟩ [0b11111011] = .ok (.xceImp, []) := by decide

/-- 45_stack_control: PEA is 1111 0100, low byte first; JSR (a,X) is 1111 1100; BRA is 1000 0000; BRK has a
signature byte. -/
theorem test_decode_stack_control :
    decode ⟨.w8, .w8⟩ [0b11110100, 0xEF, 0xBE] = .ok (.peaImm16 0xBEEF, []) ∧
    decode ⟨.w8, .w8⟩ [0b11111100, 0x00, 0x90] = .ok (.jsrAbsxind 0x9000, []) ∧
    decode ⟨.w8, .w8⟩ [0b10000000, 0xFE] = .ok (.braRel8 0xFE, []) ∧
    decode ⟨.w8, .w8⟩ [0b00000000, 0x99] = .ok (.brkSig8 0x99, []) := by decide

/-- 46_system: MVP is 0100 0100, destination bank first (R106); WDM is 0100 0010 with one operand byte. -/
theorem test_decode_system :
    decode ⟨.w8, .w8⟩ [0b01000100, 0x7F, 0x01] = .ok (.mvpBlk 0x7F 0x01, []) ∧
    decode ⟨.w8, .w8⟩ [0b01000010, 0x33] = .ok (.wdmImm8 0x33, []) := by decide

/-- Too few bytes are refused by name (R100, R102). -/
theorem test_decode_refuses_short :
    decode ⟨.w8, .w8⟩ [] = .error .noOpcode ∧ decode ⟨.w16, .w8⟩ [0xA9, 0x42] = .error (.truncated 0xA9) := by decide

/-- A table word is laid out as the hardware stores it, and the next step runs it. -/
theorem test_table_word :
    decodeTableWord 16 0x42A9 = some (.ldaImmM (.w8 0x42)) ∧
    (after (State.reset.withFetchWord 16 0x42A9)).c = 0x0042 := by decide

/-! ### Vectors of 95_test_vectors.md -/

/-- V-LS1: LDA. -/
theorem test_V_LS1 :
    let t := after (start [0xA9, 0x00] [])
    t.pc = 0x8002 ∧ t.p = 0x36 ∧ t.cycles = 2 := by decide

/-- V-LS2: LDA. -/
theorem test_V_LS2 :
    let t := after ({ start [0xA9, 0x80] [] with c := 0x1200 })
    t.c = 0x1280 ∧ t.pc = 0x8002 ∧ t.p = 0xB4 ∧ t.cycles = 2 := by decide

/-- V-LS12: LDX. -/
theorem test_V_LS12 :
    let t := after ({ start [0xA2, 0x00, 0x80] [] with e := false, p := 0x24 })
    t.x = 0x8000 ∧ t.pc = 0x8003 ∧ t.p = 0xA4 ∧ t.cycles = 3 := by decide

/-- V-LS13: LDY. -/
theorem test_V_LS13 :
    let t := after ({ start [0xBC, 0x00, 0x20] [(0x2002, 0x00)] with y := 0x0, x := 0x2 })
    t.pc = 0x8003 ∧ t.p = 0x36 ∧ t.cycles = 4 := by decide

/-- V-LS14: STA. -/
theorem test_V_LS14 :
    let t := after ({ start [0x8D, 0xFF, 0xFF] [] with e := false, p := 0x4, c := 0xBEEF, dbr := 0x2 })
    t.pc = 0x8003 ∧ Memory.read t.mem 0x2FFFF = 0xEF ∧ Memory.read t.mem 0x30000 = 0xBE ∧ t.cycles = 5 := by decide

/-- V-LS15: STA. -/
theorem test_V_LS15 :
    let t := after ({ start [0x85, 0x40] [] with c := 0x12AB, d := 0x0 })
    t.pc = 0x8002 ∧ Memory.read t.mem 0x40 = 0xAB ∧ t.cycles = 3 := by decide

/-- V-LS16: STX. -/
theorem test_V_LS16 :
    let t := after ({ start [0x86, 0x0F] [] with e := false, p := 0x4, x := 0x5566, d := 0xFFF0 })
    t.pc = 0x8002 ∧ Memory.read t.mem 0x0 = 0x55 ∧ Memory.read t.mem 0xFFFF = 0x66 ∧ t.cycles = 5 := by decide

/-- V-LS17: STY. -/
theorem test_V_LS17 :
    let t := after ({ start [0x8C, 0x00, 0x03] [] with y := 0x33 })
    t.pc = 0x8003 ∧ Memory.read t.mem 0x300 = 0x33 ∧ t.cycles = 4 := by decide

/-- V-LS18: STZ. -/
theorem test_V_LS18 :
    let t := after ({ start [0x9E, 0x00, 0x04] [(0x402, 0xFF), (0x403, 0xFF)]
      with e := false, p := 0x4, x := 0x2 })
    t.pc = 0x8003 ∧ Memory.read t.mem 0x402 = 0x00 ∧ Memory.read t.mem 0x403 = 0x00 ∧ t.cycles = 6 := by decide

/-- V-LS19: TAX. -/
theorem test_V_LS19 :
    let t := after ({ start [0xAA] [] with e := false, p := 0x14, c := 0xABCD, x := 0x1100 })
    t.x = 0x11CD ∧ t.pc = 0x8001 ∧ t.p = 0x94 ∧ t.cycles = 2 := by decide

/-- V-LS20: TAX. -/
theorem test_V_LS20 :
    let t := after ({ start [0xAA] [] with e := false, p := 0x24, c := 0xABCD })
    t.x = 0xABCD ∧ t.pc = 0x8001 ∧ t.p = 0xA4 ∧ t.cycles = 2 := by decide

/-- V-LS21: TXA. -/
theorem test_V_LS21 :
    let t := after ({ start [0x8A] [] with x := 0x80, c := 0x1200 })
    t.c = 0x1280 ∧ t.pc = 0x8001 ∧ t.p = 0xB4 ∧ t.cycles = 2 := by decide

/-- V-LS22: TXY. -/
theorem test_V_LS22 :
    let t := after ({ start [0x9B] [] with e := false, p := 0x4, x := 0x8001 })
    t.y = 0x8001 ∧ t.pc = 0x8001 ∧ t.p = 0x84 ∧ t.cycles = 2 := by decide

/-- V-LS23: TSX. -/
theorem test_V_LS23 :
    let t := after ({ start [0xBA] [] with sp := 0x1F5 })
    t.x = 0xF5 ∧ t.pc = 0x8001 ∧ t.p = 0xB4 ∧ t.cycles = 2 := by decide

/-- V-LS24: TXS. -/
theorem test_V_LS24 :
    let t := after ({ start [0x9A] [] with x := 0x22 })
    t.sp = 0x122 ∧ t.pc = 0x8001 ∧ t.cycles = 2 := by decide

/-- V-LS25: TXS. -/
theorem test_V_LS25 :
    let t := after ({ start [0x9A] [] with e := false, p := 0x4, x := 0xFFF })
    t.sp = 0xFFF ∧ t.pc = 0x8001 ∧ t.cycles = 2 := by decide

/-- V-LS26: TCS. -/
theorem test_V_LS26 :
    let t := after ({ start [0x1B] [] with e := false, p := 0x34, c := 0x1FFF })
    t.sp = 0x1FFF ∧ t.pc = 0x8001 ∧ t.cycles = 2 := by decide

/-- V-LS27: TSC. -/
theorem test_V_LS27 :
    let t := after ({ start [0x3B] [] with sp := 0x1FF, c := 0x0 })
    t.c = 0x1FF ∧ t.pc = 0x8001 ∧ t.cycles = 2 := by decide

/-- V-LS28: TCD. -/
theorem test_V_LS28 :
    let t := after ({ start [0x5B] [] with c := 0x8000 })
    t.d = 0x8000 ∧ t.pc = 0x8001 ∧ t.p = 0xB4 ∧ t.cycles = 2 := by decide

/-- V-LS29: TDC. -/
theorem test_V_LS29 :
    let t := after ({ start [0x7B] [] with d := 0x0, c := 0x1234 })
    t.c = 0x0 ∧ t.pc = 0x8001 ∧ t.p = 0x36 ∧ t.cycles = 2 := by decide

/-- V-LS30: XBA. -/
theorem test_V_LS30 :
    let t := after ({ start [0xEB] [] with c := 0x80FF })
    t.c = 0xFF80 ∧ t.pc = 0x8001 ∧ t.p = 0xB4 ∧ t.cycles = 3 := by decide

/-- V-AL1: ADC. -/
theorem test_V_AL1 :
    let t := after ({ start [0x69, 0x02] [] with c := 0xFF, p := 0x34 })
    t.c = 0x1 ∧ t.pc = 0x8002 ∧ t.p = 0x35 ∧ t.cycles = 2 := by decide

/-- V-AL2: ADC. -/
theorem test_V_AL2 :
    let t := after ({ start [0x69, 0x01] [] with c := 0x7F })
    t.c = 0x80 ∧ t.pc = 0x8002 ∧ t.p = 0xF4 ∧ t.cycles = 2 := by decide

/-- V-AL9: SBC. -/
theorem test_V_AL9 :
    let t := after ({ start [0xE9, 0x03] [] with p := 0x35, c := 0x5 })
    t.c = 0x2 ∧ t.pc = 0x8002 ∧ t.cycles = 2 := by decide

/-- V-AL10: SBC. -/
theorem test_V_AL10 :
    let t := after ({ start [0xE9, 0x05] [] with p := 0x35, c := 0x3 })
    t.c = 0xFE ∧ t.pc = 0x8002 ∧ t.p = 0xB4 ∧ t.cycles = 2 := by decide

/-- V-AL15: AND. -/
theorem test_V_AL15 :
    let t := after ({ start [0x29, 0x0F] [] with c := 0xF0 })
    t.c = 0x0 ∧ t.pc = 0x8002 ∧ t.p = 0x36 ∧ t.cycles = 2 := by decide

/-- V-AL16: ORA. -/
theorem test_V_AL16 :
    let t := after ({ start [0x05, 0x10] [(0x10, 0x00), (0x11, 0x80)] with e := false, p := 0x4, c := 0x1 })
    t.c = 0x8001 ∧ t.pc = 0x8002 ∧ t.p = 0x84 ∧ t.cycles = 4 := by decide

/-- V-AL17: EOR. -/
theorem test_V_AL17 :
    let t := after ({ start [0x49, 0xFF] [] with c := 0xFF })
    t.c = 0x0 ∧ t.pc = 0x8002 ∧ t.p = 0x36 ∧ t.cycles = 2 := by decide

/-- V-AL18: CMP. -/
theorem test_V_AL18 :
    let t := after ({ start [0xC9, 0x05] [] with c := 0x5 })
    t.pc = 0x8002 ∧ t.p = 0x37 ∧ t.cycles = 2 := by decide

/-- V-AL19: CMP. -/
theorem test_V_AL19 :
    let t := after ({ start [0xC9, 0x05] [] with c := 0x4 })
    t.pc = 0x8002 ∧ t.p = 0xB4 ∧ t.cycles = 2 := by decide

/-- V-AL21: CPX. -/
theorem test_V_AL21 :
    let t := after ({ start [0xE0, 0x00, 0x20] [] with e := false, p := 0x4, x := 0x1000 })
    t.pc = 0x8003 ∧ t.p = 0x84 ∧ t.cycles = 3 := by decide

/-- V-AL22: CPY. -/
theorem test_V_AL22 :
    let t := after ({ start [0xC0, 0x40] [] with y := 0x40 })
    t.pc = 0x8002 ∧ t.p = 0x37 ∧ t.cycles = 2 := by decide

/-- V-AL23: BIT. -/
theorem test_V_AL23 :
    let t := after ({ start [0x24, 0x10] [(0x10, 0xC0)] with c := 0x1 })
    t.pc = 0x8002 ∧ t.p = 0xF6 ∧ t.cycles = 3 := by decide

/-- V-AL24: BIT. -/
theorem test_V_AL24 :
    let t := after ({ start [0x89, 0x02] [] with c := 0x1, p := 0xF4 })
    t.pc = 0x8002 ∧ t.p = 0xF6 ∧ t.cycles = 2 := by decide

/-- V-AL25: ASL. -/
theorem test_V_AL25 :
    let t := after ({ start [0x0A] [] with c := 0x81 })
    t.c = 0x2 ∧ t.pc = 0x8001 ∧ t.p = 0x35 ∧ t.cycles = 2 := by decide

/-- V-AL26: ASL. -/
theorem test_V_AL26 :
    let t := after ({ start [0x0E, 0x00, 0x03] [(0x300, 0x01), (0x301, 0x80)] with e := false, p := 0x4 })
    t.pc = 0x8003 ∧ t.p = 0x5 ∧ Memory.read t.mem 0x300 = 0x02 ∧ Memory.read t.mem 0x301 = 0x00 ∧
    t.cycles = 8 := by decide

/-- V-AL27: LSR. -/
theorem test_V_AL27 :
    let t := after (start [0x46, 0x10] [(0x10, 0x01)])
    t.pc = 0x8002 ∧ t.p = 0x37 ∧ Memory.read t.mem 0x10 = 0x00 ∧ t.cycles = 5 := by decide

/-- V-AL28: ROL. -/
theorem test_V_AL28 :
    let t := after ({ start [0x2A] [] with p := 0x35, c := 0x80 })
    t.c = 0x1 ∧ t.pc = 0x8001 ∧ t.cycles = 2 := by decide

/-- V-AL29: ROR. -/
theorem test_V_AL29 :
    let t := after ({ start [0x6A] [] with e := false, p := 0x5, c := 0x1 })
    t.c = 0x8000 ∧ t.pc = 0x8001 ∧ t.p = 0x85 ∧ t.cycles = 2 := by decide

/-- V-AL30: INC. -/
theorem test_V_AL30 :
    let t := after ({ start [0x1A] [] with c := 0xFF })
    t.c = 0x0 ∧ t.pc = 0x8001 ∧ t.p = 0x36 ∧ t.cycles = 2 := by decide

/-- V-AL31: DEC. -/
theorem test_V_AL31 :
    let t := after ({ start [0xD6, 0x10] [(0x13, 0x00), (0x14, 0x00)]
      with e := false, p := 0x4, d := 0x1, x := 0x2 })
    t.pc = 0x8002 ∧ t.p = 0x84 ∧ Memory.read t.mem 0x13 = 0xFF ∧ Memory.read t.mem 0x14 = 0xFF ∧
    t.cycles = 9 := by decide

/-- V-AL32: INC. -/
theorem test_V_AL32 :
    let t := after ({ start [0xFE, 0x00, 0x03] [(0x301, 0xFF), (0x302, 0x7F)]
      with e := false, p := 0x4, x := 0x1 })
    t.pc = 0x8003 ∧ t.p = 0x84 ∧ Memory.read t.mem 0x301 = 0x00 ∧ Memory.read t.mem 0x302 = 0x80 ∧
    t.cycles = 9 := by decide

/-- V-AL33: TSB. -/
theorem test_V_AL33 :
    let t := after ({ start [0x04, 0x10] [(0x10, 0x04)] with c := 0x3 })
    t.pc = 0x8002 ∧ t.p = 0x36 ∧ Memory.read t.mem 0x10 = 0x07 ∧ t.cycles = 5 := by decide

/-- V-AL34: TRB. -/
theorem test_V_AL34 :
    let t := after ({ start [0x1C, 0x00, 0x03] [(0x300, 0x0F)] with c := 0x6 })
    t.pc = 0x8003 ∧ Memory.read t.mem 0x300 = 0x09 ∧ t.cycles = 6 := by decide

/-- V-AL35: INX. -/
theorem test_V_AL35 :
    let t := after ({ start [0xE8] [] with x := 0xFF })
    t.x = 0x0 ∧ t.pc = 0x8001 ∧ t.p = 0x36 ∧ t.cycles = 2 := by decide

/-- V-AL36: INY. -/
theorem test_V_AL36 :
    let t := after ({ start [0xC8] [] with e := false, p := 0x4, y := 0x7FFF })
    t.y = 0x8000 ∧ t.pc = 0x8001 ∧ t.p = 0x84 ∧ t.cycles = 2 := by decide

/-- V-AL37: DEX. -/
theorem test_V_AL37 :
    let t := after ({ start [0xCA] [] with x := 0x1 })
    t.x = 0x0 ∧ t.pc = 0x8001 ∧ t.p = 0x36 ∧ t.cycles = 2 := by decide

/-- V-AL38: DEY. -/
theorem test_V_AL38 :
    let t := after ({ start [0x88] [] with e := false, p := 0x4, y := 0x0 })
    t.y = 0xFFFF ∧ t.pc = 0x8001 ∧ t.p = 0x84 ∧ t.cycles = 2 := by decide

/-- V-AL39: INX. -/
theorem test_V_AL39 :
    let t := after ({ start [0xE8] [] with e := false, p := 0x34, x := 0x12FF })
    t.x = 0x1200 ∧ t.pc = 0x8001 ∧ t.p = 0x36 ∧ t.cycles = 2 := by decide

/-- V-MF1: REP. -/
theorem test_V_MF1 :
    let t := after ({ start [0xC2, 0x30] [] with p := 0x34 })
    t.pc = 0x8002 ∧ t.cycles = 3 := by decide

/-- V-MF2: REP. -/
theorem test_V_MF2 :
    let t := after ({ start [0xC2, 0x30] [] with e := false, p := 0x34 })
    t.pc = 0x8002 ∧ t.p = 0x4 ∧ t.cycles = 3 := by decide

/-- V-MF4: SEP. -/
theorem test_V_MF4 :
    let t := after ({ start [0xE2, 0x20] [] with e := false, p := 0x4, c := 0x1234 })
    t.pc = 0x8002 ∧ t.p = 0x24 ∧ t.cycles = 3 := by decide

/-- V-MF5: SEP. -/
theorem test_V_MF5 :
    let t := after ({ start [0xE2, 0x10] [] with e := false, p := 0x4, x := 0x1234 })
    t.x = 0x1234 ∧ t.pc = 0x8002 ∧ t.p = 0x14 ∧ t.cycles = 3 := by decide

/-- V-MF7: XCE. -/
theorem test_V_MF7 :
    let t := after ({ start [0xFB] [] with p := 0x34 })
    t.pc = 0x8001 ∧ t.p = 0x35 ∧ t.e = false ∧ t.cycles = 2 := by decide

/-- V-MF8: XCE. -/
theorem test_V_MF8 :
    let t := after ({ start [0xFB] [] with p := 0x35 })
    t.pc = 0x8001 ∧ t.cycles = 2 := by decide

/-- V-MF11: CLC. -/
theorem test_V_MF11 :
    let t := after ({ start [0x18] [] with p := 0x35 })
    t.pc = 0x8001 ∧ t.p = 0x34 ∧ t.cycles = 2 := by decide

/-- V-MF12: SEC. -/
theorem test_V_MF12 :
    let t := after ({ start [0x38] [] with p := 0x34 })
    t.pc = 0x8001 ∧ t.p = 0x35 ∧ t.cycles = 2 := by decide

/-- V-MF13: CLI. -/
theorem test_V_MF13 :
    let t := after ({ start [0x58] [] with p := 0x34 })
    t.pc = 0x8001 ∧ t.p = 0x30 ∧ t.cycles = 2 := by decide

/-- V-MF14: SEI. -/
theorem test_V_MF14 :
    let t := after ({ start [0x78] [] with p := 0x30 })
    t.pc = 0x8001 ∧ t.p = 0x34 ∧ t.cycles = 2 := by decide

/-- V-MF15: CLD. -/
theorem test_V_MF15 :
    let t := after ({ start [0xD8] [] with p := 0x3C })
    t.pc = 0x8001 ∧ t.p = 0x34 ∧ t.cycles = 2 := by decide

/-- V-MF16: SED. -/
theorem test_V_MF16 :
    let t := after ({ start [0xF8] [] with p := 0x34 })
    t.pc = 0x8001 ∧ t.p = 0x3C ∧ t.cycles = 2 := by decide

/-- V-MF17: CLV. -/
theorem test_V_MF17 :
    let t := after ({ start [0xB8] [] with p := 0x74 })
    t.pc = 0x8001 ∧ t.p = 0x34 ∧ t.cycles = 2 := by decide

/-- V-SC1: PHA. -/
theorem test_V_SC1 :
    let t := after ({ start [0x48] [] with c := 0x1234 })
    t.sp = 0x1FE ∧ t.pc = 0x8001 ∧ Memory.read t.mem 0x1FF = 0x34 ∧ t.cycles = 3 := by decide

/-- V-SC2: PHA. -/
theorem test_V_SC2 :
    let t := after ({ start [0x48] [] with e := false, p := 0x4, c := 0x1234, sp := 0x1FFF })
    t.sp = 0x1FFD ∧ t.pc = 0x8001 ∧ Memory.read t.mem 0x1FFE = 0x34 ∧ Memory.read t.mem 0x1FFF = 0x12 ∧
    t.cycles = 4 := by decide

/-- V-SC4: PLA. -/
theorem test_V_SC4 :
    let t := after ({ start [0x68] [(0x1FF, 0x80)] with sp := 0x1FE })
    t.c = 0x80 ∧ t.sp = 0x1FF ∧ t.pc = 0x8001 ∧ t.p = 0xB4 ∧ t.cycles = 4 := by decide

/-- V-SC5: PLA. -/
theorem test_V_SC5 :
    let t := after ({ start [0x68] [(0x100, 0x00)] with sp := 0x1FF })
    t.sp = 0x100 ∧ t.pc = 0x8001 ∧ t.p = 0x36 ∧ t.cycles = 4 := by decide

/-- V-SC6: PHX. -/
theorem test_V_SC6 :
    let t := after ({ start [0xDA] [] with e := false, p := 0x4, x := 0xBEEF, sp := 0x1FFF })
    t.sp = 0x1FFD ∧ t.pc = 0x8001 ∧ Memory.read t.mem 0x1FFE = 0xEF ∧ Memory.read t.mem 0x1FFF = 0xBE ∧
    t.cycles = 4 := by decide

/-- V-SC7: PLY. -/
theorem test_V_SC7 :
    let t := after ({ start [0x7A] [(0x1FFE, 0x00), (0x1FFF, 0x80)] with e := false, p := 0x4, sp := 0x1FFD })
    t.y = 0x8000 ∧ t.sp = 0x1FFF ∧ t.pc = 0x8001 ∧ t.p = 0x84 ∧ t.cycles = 5 := by decide

/-- V-SC8: PHP. -/
theorem test_V_SC8 :
    let t := after ({ start [0x08] [] with p := 0xB5 })
    t.sp = 0x1FE ∧ t.pc = 0x8001 ∧ Memory.read t.mem 0x1FF = 0xB5 ∧ t.cycles = 3 := by decide

/-- V-SC9: PLP. -/
theorem test_V_SC9 :
    let t := after ({ start [0x28] [(0x1FF, 0x00)] with sp := 0x1FE })
    t.sp = 0x1FF ∧ t.pc = 0x8001 ∧ t.p = 0x30 ∧ t.cycles = 4 := by decide

/-- V-SC10: PLP. -/
theorem test_V_SC10 :
    let t := after ({ start [0x28] [(0x1FF, 0x00)] with e := false, p := 0x34, sp := 0x1FE })
    t.sp = 0x1FF ∧ t.pc = 0x8001 ∧ t.p = 0x0 ∧ t.cycles = 4 := by decide

/-- V-SC11: PHB. -/
theorem test_V_SC11 :
    let t := after ({ start [0x8B] [] with dbr := 0x7E })
    t.sp = 0x1FE ∧ t.pc = 0x8001 ∧ Memory.read t.mem 0x1FF = 0x7E ∧ t.cycles = 3 := by decide

/-- V-SC12: PLB. -/
theorem test_V_SC12 :
    let t := after ({ start [0xAB] [(0x1FF, 0x80)] with sp := 0x1FE })
    t.sp = 0x1FF ∧ t.dbr = 0x80 ∧ t.pc = 0x8001 ∧ t.p = 0xB4 ∧ t.cycles = 4 := by decide

/-- V-SC13: PHK. -/
theorem test_V_SC13 :
    let t := after (startIn 0x12 [0x4B] [])
    t.sp = 0x1FE ∧ t.pc = 0x8001 ∧ Memory.read t.mem 0x1FF = 0x12 ∧ t.cycles = 3 := by decide

/-- V-SC14: PHD. -/
theorem test_V_SC14 :
    let t := after ({ start [0x0B] [] with d := 0x2100 })
    t.sp = 0x1FD ∧ t.pc = 0x8001 ∧ Memory.read t.mem 0x1FE = 0x00 ∧ Memory.read t.mem 0x1FF = 0x21 ∧
    t.cycles = 4 := by decide

/-- V-SC15: PLD. -/
theorem test_V_SC15 :
    let t := after ({ start [0x2B] [(0x1FE, 0x00), (0x1FF, 0x00)] with sp := 0x1FD })
    t.sp = 0x1FF ∧ t.pc = 0x8001 ∧ t.p = 0x36 ∧ t.cycles = 5 := by decide

/-- V-SC16: PEA. -/
theorem test_V_SC16 :
    let t := after (start [0xF4, 0x34, 0x12] [])
    t.sp = 0x1FD ∧ t.pc = 0x8003 ∧ Memory.read t.mem 0x1FE = 0x34 ∧ Memory.read t.mem 0x1FF = 0x12 ∧
    t.cycles = 5 := by decide

/-- V-SC17: PEI. -/
theorem test_V_SC17 :
    let t := after ({ start [0xD4, 0x10] [(0x10, 0xCD), (0x11, 0xAB)] with d := 0x0 })
    t.sp = 0x1FD ∧ t.pc = 0x8002 ∧ Memory.read t.mem 0x1FE = 0xCD ∧ Memory.read t.mem 0x1FF = 0xAB ∧
    t.cycles = 6 := by decide

/-- V-SC18: PER. -/
theorem test_V_SC18 :
    let t := after (start [0x62, 0x10, 0x00] [])
    t.sp = 0x1FD ∧ t.pc = 0x8003 ∧ Memory.read t.mem 0x1FE = 0x13 ∧ Memory.read t.mem 0x1FF = 0x80 ∧
    t.cycles = 6 := by decide

/-- V-SC19: JMP. -/
theorem test_V_SC19 :
    let t := after (start [0x4C, 0x00, 0x90] [])
    t.pc = 0x9000 ∧ t.cycles = 3 := by decide

/-- V-SC20: JMP. -/
theorem test_V_SC20 :
    let t := after (start [0x6C, 0x00, 0x03] [(0x300, 0x00), (0x301, 0xA0)])
    t.pc = 0xA000 ∧ t.cycles = 5 := by decide

/-- V-SC22: JML. -/
theorem test_V_SC22 :
    let t := after (start [0x5C, 0x00, 0x90, 0x05] [])
    t.pbr = 0x5 ∧ t.pc = 0x9000 ∧ t.cycles = 4 := by decide

/-- V-SC23: JML. -/
theorem test_V_SC23 :
    let t := after (start [0xDC, 0x00, 0x03] [(0x300, 0x00), (0x301, 0xA0), (0x302, 0x07)])
    t.pbr = 0x7 ∧ t.pc = 0xA000 ∧ t.cycles = 6 := by decide

/-- V-SC24: JSR. -/
theorem test_V_SC24 :
    let t := after (start [0x20, 0x00, 0x90] [])
    t.sp = 0x1FD ∧ t.pc = 0x9000 ∧ Memory.read t.mem 0x1FE = 0x02 ∧ Memory.read t.mem 0x1FF = 0x80 ∧
    t.cycles = 6 := by decide

/-- V-SC25: JSR. -/
theorem test_V_SC25 :
    let t := after ({ start [0xFC, 0x00, 0x03] [(0x304, 0x00), (0x305, 0xC0)] with x := 0x4 })
    t.sp = 0x1FD ∧ t.pc = 0xC000 ∧ Memory.read t.mem 0x1FE = 0x02 ∧ Memory.read t.mem 0x1FF = 0x80 ∧
    t.cycles = 8 := by decide

/-- V-SC26: JSL. -/
theorem test_V_SC26 :
    let t := after ({ start [0x22, 0x00, 0x90, 0x03] [] with e := false, p := 0x34, sp := 0x1FFF })
    t.sp = 0x1FFC ∧ t.pbr = 0x3 ∧ t.pc = 0x9000 ∧ Memory.read t.mem 0x1FFD = 0x03 ∧
    Memory.read t.mem 0x1FFE = 0x80 ∧ Memory.read t.mem 0x1FFF = 0x00 ∧ t.cycles = 8 := by decide

/-- V-SC27: RTS. -/
theorem test_V_SC27 :
    let t := after ({ start [0x60] [(0x1FE, 0x02), (0x1FF, 0x80)] with sp := 0x1FD })
    t.sp = 0x1FF ∧ t.pc = 0x8003 ∧ t.cycles = 6 := by decide

/-- V-SC28: RTS. -/
theorem test_V_SC28 :
    let t := after ({ start [0x60] [(0x1FE, 0xFF), (0x1FF, 0xFF)] with sp := 0x1FD })
    t.sp = 0x1FF ∧ t.pc = 0x0 ∧ t.cycles = 6 := by decide

/-- V-SC29: RTL. -/
theorem test_V_SC29 :
    let t := after ({ start [0x6B] [(0x1FFD, 0x02), (0x1FFE, 0x80), (0x1FFF, 0x03)]
      with e := false, p := 0x34, sp := 0x1FFC })
    t.sp = 0x1FFF ∧ t.pbr = 0x3 ∧ t.pc = 0x8003 ∧ t.cycles = 6 := by decide

/-- V-SC30: RTI. -/
theorem test_V_SC30 :
    let t := after ({ start [0x40] [(0x1FD, 0xC3), (0x1FE, 0x00), (0x1FF, 0x90)] with sp := 0x1FC })
    t.sp = 0x1FF ∧ t.pc = 0x9000 ∧ t.p = 0xF3 ∧ t.cycles = 6 := by decide

/-- V-SC31: RTI. -/
theorem test_V_SC31 :
    let t := after ({ start [0x40] [(0x1FFC, 0x00), (0x1FFD, 0x34), (0x1FFE, 0x12), (0x1FFF, 0x05)]
      with e := false, p := 0x34, sp := 0x1FFB })
    t.sp = 0x1FFF ∧ t.pbr = 0x5 ∧ t.pc = 0x1234 ∧ t.p = 0x0 ∧ t.cycles = 7 := by decide

/-- V-SC32: BEQ. -/
theorem test_V_SC32 :
    let t := after ({ start [0xF0, 0x10] [] with p := 0x34 })
    t.pc = 0x8002 ∧ t.cycles = 2 := by decide

/-- V-SC33: BEQ. -/
theorem test_V_SC33 :
    let t := after ({ start [0xF0, 0x10] [] with p := 0x36 })
    t.pc = 0x8012 ∧ t.cycles = 3 := by decide

/-- V-SC34: BNE. -/
theorem test_V_SC34 :
    let t := after ({ start [0xD0, 0xF0] [] with p := 0x34 })
    t.pc = 0x7FF2 ∧ t.cycles = 4 := by decide

/-- V-SC35: BNE. -/
theorem test_V_SC35 :
    let t := after ({ start [0xD0, 0xF0] [] with e := false, p := 0x34 })
    t.pc = 0x7FF2 ∧ t.cycles = 3 := by decide

/-- V-SC36: BPL. -/
theorem test_V_SC36 :
    let t := after ({ start [0x10, 0x02] [] with p := 0x34 })
    t.pc = 0x8004 ∧ t.cycles = 3 := by decide

/-- V-SC37: BMI. -/
theorem test_V_SC37 :
    let t := after ({ start [0x30, 0x02] [] with p := 0x34 })
    t.pc = 0x8002 ∧ t.cycles = 2 := by decide

/-- V-SC38: BVC. -/
theorem test_V_SC38 :
    let t := after ({ start [0x50, 0x02] [] with p := 0x34 })
    t.pc = 0x8004 ∧ t.cycles = 3 := by decide

/-- V-SC39: BVS. -/
theorem test_V_SC39 :
    let t := after ({ start [0x70, 0x02] [] with p := 0x74 })
    t.pc = 0x8004 ∧ t.cycles = 3 := by decide

/-- V-SC40: BCC. -/
theorem test_V_SC40 :
    let t := after ({ start [0x90, 0x7F] [] with p := 0x34 })
    t.pc = 0x8081 ∧ t.cycles = 3 := by decide

/-- V-SC41: BCS. -/
theorem test_V_SC41 :
    let t := after ({ start [0xB0, 0x80] [] with p := 0x35 })
    t.pc = 0x7F82 ∧ t.cycles = 4 := by decide

/-- V-SC42: BRA. -/
theorem test_V_SC42 :
    let t := after (start [0x80, 0xFE] [])
    t.pc = 0x8000 ∧ t.cycles = 3 := by decide

/-- V-SC43: BRL. -/
theorem test_V_SC43 :
    let t := after (start [0x82, 0x00, 0x80] [])
    t.pc = 0x3 ∧ t.cycles = 4 := by decide

/-- V-SC44: BRK. -/
theorem test_V_SC44 :
    let t := after ({ start [0x00, 0xEA] [(0xFFFE, 0x00), (0xFFFF, 0x90)] with p := 0x30 })
    t.sp = 0x1FC ∧ t.pc = 0x9000 ∧ t.p = 0x34 ∧ Memory.read t.mem 0x1FD = 0x30 ∧
    Memory.read t.mem 0x1FE = 0x02 ∧ Memory.read t.mem 0x1FF = 0x80 ∧ t.cycles = 7 := by decide

/-- V-SC45: BRK. -/
theorem test_V_SC45 :
    let t := after ({ startIn 0x02 [0x00, 0xEA] [(0xFFE6, 0x00), (0xFFE7, 0x91)]
      with e := false, p := 0xC, sp := 0x1FFF })
    t.sp = 0x1FFB ∧ t.pbr = 0x0 ∧ t.pc = 0x9100 ∧ t.p = 0x4 ∧ Memory.read t.mem 0x1FFC = 0x0C ∧
    Memory.read t.mem 0x1FFD = 0x02 ∧ Memory.read t.mem 0x1FFE = 0x80 ∧
    Memory.read t.mem 0x1FFF = 0x02 ∧ t.cycles = 8 := by decide

/-- V-SC46: COP. -/
theorem test_V_SC46 :
    let t := after ({ start [0x02, 0x05] [(0xFFF4, 0x00), (0xFFF5, 0x92)] with p := 0x38 })
    t.sp = 0x1FC ∧ t.pc = 0x9200 ∧ t.p = 0x34 ∧ Memory.read t.mem 0x1FD = 0x38 ∧
    Memory.read t.mem 0x1FE = 0x02 ∧ Memory.read t.mem 0x1FF = 0x80 ∧ t.cycles = 7 := by decide

/-- V-SC47: COP. -/
theorem test_V_SC47 :
    let t := after ({ start [0x02, 0x05] [(0xFFE4, 0x00), (0xFFE5, 0x93)]
      with e := false, p := 0x4, sp := 0x1FFF })
    t.sp = 0x1FFB ∧ t.pc = 0x9300 ∧ Memory.read t.mem 0x1FFC = 0x04 ∧ Memory.read t.mem 0x1FFD = 0x02 ∧
    Memory.read t.mem 0x1FFE = 0x80 ∧ Memory.read t.mem 0x1FFF = 0x00 ∧ t.cycles = 8 := by decide

/-- V-SY1: NOP. -/
theorem test_V_SY1 :
    let t := after (start [0xEA] [])
    t.pc = 0x8001 ∧ t.cycles = 2 := by decide

/-- V-SY2: WDM. -/
theorem test_V_SY2 :
    let t := after (start [0x42, 0xFF] [])
    t.pc = 0x8002 ∧ t.cycles = 2 := by decide

/-- V-SY4: MVN. -/
theorem test_V_SY4 :
    let t := after ({ start [0x54, 0x00, 0x00] [(0x1000, 0xAA)]
      with e := false, p := 0x4, c := 0x1, x := 0x1000, y := 0x2000 })
    t.c = 0x0 ∧ t.x = 0x1001 ∧ t.y = 0x2001 ∧ t.pc = 0x8000 ∧ Memory.read t.mem 0x2000 = 0xAA ∧
    t.cycles = 7 := by decide

/-- V-SY6: MVP. -/
theorem test_V_SY6 :
    let t := after ({ start [0x44, 0x7E, 0x7F] [(0x7F1000, 0x55)]
      with e := false, p := 0x4, c := 0x0, x := 0x1000, y := 0x2000 })
    t.c = 0xFFFF ∧ t.x = 0xFFF ∧ t.y = 0x1FFF ∧ t.dbr = 0x7E ∧ t.pc = 0x8003 ∧
    Memory.read t.mem 0x7E2000 = 0x55 ∧ t.cycles = 7 := by decide

/-- V-SY7: MVN. -/
theorem test_V_SY7 :
    let t := after ({ start [0x54, 0x02, 0x01] [(0x100FF, 0x11)]
      with e := false, p := 0x14, c := 0x0, x := 0xFF, y := 0xFF })
    t.c = 0xFFFF ∧ t.x = 0x0 ∧ t.y = 0x0 ∧ t.dbr = 0x2 ∧ t.pc = 0x8003 ∧
    Memory.read t.mem 0x200FF = 0x11 ∧ t.cycles = 7 := by decide

/-- PHY (R306), by hand: one byte at $01FF. -/
theorem test_phy :
    let t := after ({ start [0x5A] [] with y := 0x33 })
    Memory.read t.mem 0x01FF = 0x33 ∧ t.sp = 0x01FE ∧ t.cycles = 3 := by decide

/-- PLX (R308), by hand. -/
theorem test_plx :
    let t := after ({ start [0xFA] [(0x01FF, 0x80)] with sp := 0x01FE })
    t.x = 0x0080 ∧ t.sp = 0x01FF ∧ t.p = 0xB4 ∧ t.cycles = 4 := by decide

/-- TAY (R208), by hand. -/
theorem test_tay :
    let t := after ({ start [0xA8] [] with c := 0x1280 })
    t.y = 0x0080 ∧ t.p = 0xB4 ∧ t.cycles = 2 := by decide

/-- TYA (R210), by hand: B is kept. -/
theorem test_tya :
    let t := after ({ start [0x98] [] with c := 0x12FF })
    t.c = 0x1200 ∧ t.p = 0x36 ∧ t.cycles = 2 := by decide

/-- TYX (R212), by hand. -/
theorem test_tyx :
    let t := after ({ start [0xBB] [] with y := 0x7F })
    t.x = 0x007F ∧ t.p = 0x34 ∧ t.cycles = 2 := by decide

/-- WAI (R365) and STP (R366), by hand. -/
theorem test_wai_stp :
    (after (start [0xCB] [])).run = .waiting ∧ (after (start [0xDB] [])).run = .stopped ∧
    (after (start [0xDB] [])).cycles = 3 := by decide

/-- V-EX3: an NMI in emulation mode goes through $FFFA, pushes P with bit 4 clear, and costs 7 cycles. -/
theorem test_nmi_entry :
    let r := interrupt .nmi { start [] [(0xFFFB, 0xB1)] with p := 0x3C }
    r.1 = 7 ∧ r.2.pc = 0xB100 ∧ r.2.sp = 0x01FC ∧ Memory.read r.2.mem 0x01FD = 0x2C ∧ r.2.p = 0x34 := by decide

/-- V-EX4: an IRQ in native mode pushes PBR first and goes through $FFEE. -/
theorem test_irq_entry_native :
    let r := interrupt .irq { startIn 0x03 [] [(0xFFEF, 0xA0)] with e := false, p := 0x00, sp := 0x1FFF }
    r.1 = 8 ∧ r.2.pc = 0xA000 ∧ r.2.pbr = 0x00 ∧ Memory.read r.2.mem 0x1FFF = 0x03 ∧ r.2.p = 0x04 := by decide

/-- W2 of 95_test_vectors.md: the untouched high byte survives a change of width. -/
theorem test_width_truncation :
    let s := setA 0xABCD { start [] [] with e := false, p := 0x34, c := 0x1100 }
    getA s = 0x00CD ∧ s.c = 0x11CD ∧ getA (setStatus 0x04 s) = 0x11CD := by decide

/-- R60: right after reset the accumulator reads back as the low byte of what was set. -/
theorem test_accessor_after_reset : getA (setA 0xABCD State.reset) = 0x00CD := by decide

/-- R182, by hand: at w = 8, $0F + $0F + 0 is not decimal; digit 0 is (15 + 15 + 6) mod 16 = 4 with a carry, digit 1
is 1. -/
theorem test_decimal_not_bcd :
    let o := addDec .w8 0x0F 0x0F false
    o.result = 0x14 ∧ o.c = false ∧ o.v = false := by decide

/-- W5: `reset` loads PC from $00:FFFC. -/
theorem test_reset_vector :
    let s := hostReset { start [] [(0xFFFC, 0x00), (0xFFFD, 0x80)] with c := 0x1234, e := false, p := 0x00 }
    s.pc = 0x8000 ∧ s.sp = 0x01FF ∧ s.p = 0x34 ∧ s.e = true ∧ s.c = 0x0000 := by decide

/-! ### One state that meets the hypotheses of each statement that has some -/

/-- Both statements about decoding, at an operand of all ones. -/
theorem wit_decode :
    Instr.wf ⟨.w16, .w8⟩ (.ldaImmM (.w16 0xFFFF)) = true ∧
    decode ⟨.w16, .w8⟩ [0xA9, 0xFF, 0xFF, 0x00] = .ok (.ldaImmM (.w16 0xFFFF), [0x00]) := by decide

/-- StepRunsDecodedInstruction, at the last byte of a bank. -/
theorem wit_StepRunsDecodedInstruction :
    let s := { State.reset with pc := 0xFFFF, mem := [(0x0000, 0x42), (0xFFFF, 0xA9)] }
    let addrs := (List.range 4).map fun k => addrOf s.pbr (s.pc + BitVec.ofNat 16 k)
    s.run = .running ∧ s.unknownOp (s.answer (addrOf s.pbr s.pc)) = false ∧
    decode s.widths (answers s addrs) = .ok (.ldaImmM (.w8 0x42), [0x00, 0x00]) := by decide

/-- UnknownOpcodeIsSkipped. -/
theorem wit_UnknownOpcodeIsSkipped :
    let s := { start [0x42] [] with params := { Config.defaultParams with unimplemented := [0x42] } }
    s.run = .running ∧ s.answer (addrOf s.pbr s.pc) ∈ s.params.unimplemented := by decide

/-- IdleStepOnlyCharges. -/
theorem wit_IdleStepOnlyCharges : ({ emu with run := .stopped } : State).run ≠ .running := by decide

/-- StepKeepsInvariants and MemoryFollowsBusWrites, in emulation mode. -/
theorem wit_step_emulation : Inv emu ∧ ∃ t, step emu = .next t := ⟨by decide, _, rfl⟩

/-- StepKeepsInvariants and MemoryFollowsBusWrites, in native mode with the policy Zero. -/
theorem wit_step_zero_policy : Inv narrow ∧ ∃ t, step narrow = .next t := ⟨by decide, _, rfl⟩

/-- HostCallsKeepInvariants. -/
theorem wit_HostCallsKeepInvariants :
    Inv emu ∧ ∃ t, hostRun [.setX 0xFFFF, .interrupt .nmi, .setP 0x00] emu = .next t := ⟨by decide, _, rfl⟩

/-- ControlRegisterWriters, for each register. -/
theorem wit_ControlRegisterWriters :
    (ran (.jmlLong 0x123456) emu).pbr ≠ emu.pbr ∧ (ran .plbImp { emu with sp := 0x01FE }).dbr ≠ emu.dbr ∧
    (ran .tcdImp emu).d ≠ emu.d ∧ (ran .xceImp emu).e ≠ emu.e ∧ (ran .waiImp emu).run ≠ emu.run := by decide

/-- Every instruction answers a next state: ControlRegisterWriters and CyclesFollowGrid. -/
theorem wit_exec : ∃ t, exec (.adcDpindy 0xFF) wide = .next t := ⟨_, rfl⟩

/-- ResetIsIdempotent: a RAM collaborator answers the vector alike. -/
theorem wit_ResetIsIdempotent :
    let vector := [bank0 0xFFFC, bank0 0xFFFD]
    wide.params.oracleRanges = [] ∧ answers (hostReset wide) vector = answers wide vector := by decide

/-- InterruptDelivery: stopped; masked, waiting and running; not masked, as an NMI with I set and as an IRQ. -/
theorem wit_InterruptDelivery :
    ({ emu with run := .stopped } : State).run = .stopped ∧
    (({ emu with run := .waiting } : State).run ≠ .stopped ∧ emu.flag .i = true) ∧
    (emu.run ≠ .stopped ∧ ¬(InterruptKind.nmi = .irq ∧ emu.flag .i = true)) ∧
    (wide.run ≠ .stopped ∧ ¬(InterruptKind.irq = .irq ∧ wide.flag .i = true)) := by decide

/-- EntryThenReturnRestores and CallThenReturnRestores, in both modes, S at the wrap of native mode. -/
theorem wit_entry_and_return :
    (Inv emu ∧ emu.params.oracleRanges = []) ∧ Inv wide ∧ wide.params.oracleRanges = [] := by decide

/-- PushThenPullReturns, at the wrap of each mode and the largest value of each width. -/
theorem wit_PushThenPullReturns :
    let s := { emu with sp := 0x0100 }
    ((s.e = true → hi s.sp = 0x01) ∧ s.params.oracleRanges = [] ∧ (0x00FF : Word).toNat < 2 ^ Width.w8.bits) ∧
    (wide.e = true → hi wide.sp = 0x01) ∧ wide.params.oracleRanges = [] ∧
      (0xFFFF : Word).toNat < 2 ^ Width.w16.bits := by decide

/-- AccessorsAreWidthAware: the widening clauses, under both policies; its other clauses have no hypothesis and
split on the width, which is 8 bits in `emu` and 16 in `wide`. -/
theorem wit_AccessorsAreWidthAware :
    let s := { wide with p := 0x30 }
    (s.e = false ∧ s.flag .m = true ∧ s.flag .x = true ∧ s.params.indexNarrow = .preserve) ∧
    (narrow.e = false ∧ narrow.flag .m = true ∧ narrow.flag .x = true ∧ narrow.params.indexNarrow = .zero) ∧
    ((0xDF : Byte).getLsbD 5 = false ∧ (0xEF : Byte).getLsbD 4 = false) ∧
    (emu.flag .m = true ∧ emu.flag .x = true) ∧ wide.flag .m = false ∧ wide.flag .x = false := by decide

/-- RamReadsLastWrite, and an address that is not RAM. -/
theorem wit_RamReadsLastWrite :
    let s := { emu with params := { Config.defaultParams with oracleRanges := [⟨0x2000, 2⟩] } }
    s.oracleAt 0x1FFF = false ∧ s.oracleAt 0x2000 = true ∧ s.oracleAt 0x2002 = false := by decide

/-- CanonicalMemoryIsUnique. -/
theorem wit_CanonicalMemoryIsUnique :
    Memory.wf [(0, 1), (0xFFFFFF, 2)] = true ∧
      ∀ a, Memory.read [(0, 1), (0xFFFFFF, 2)] a = Memory.read [(0, 1), (0xFFFFFF, 2)] a := ⟨by decide, fun _ => rfl⟩

/-- OperandReadsLowByteFirst, at both widths. -/
theorem wit_OperandReadsLowByteFirst :
    Imm.fits (.w8 0xFF) .w8 = true ∧ Imm.fits (.w16 0xFFFF) .w16 = true := by decide

/-- BinaryAddition and BinarySubtraction, at the largest values. -/
theorem wit_binary :
    (0x00FF : Word).toNat < 2 ^ Width.w8.bits ∧ (0xFFFF : Word).toNat < 2 ^ Width.w16.bits := by decide

/-- DecimalAddition and DecimalSubtraction, at the largest decimal numbers. -/
theorem wit_decimal :
    isBcd (Width.w8.bits / 4) 0x0099 ∧ isBcd (Width.w16.bits / 4) 0x9999 ∧ isBcd (Width.w16.bits / 4) 0x0000 := by
  unfold isBcd; decide

/-- The statements over the forms of the loads. -/
theorem wit_load_forms :
    ldaForm (.imm (.w8 0x80)) = some (.ldaImmM (.w8 0x80)) ∧ ldaForm (.mem (.dp 0xFF)) = some (.ldaDp 0xFF) ∧
    ldxForm (.mem (.absy 0xFFFF)) = some (.ldxAbsy 0xFFFF) ∧ ldyForm (.imm (.w16 0)) = some (.ldyImmX (.w16 0)) := by
  decide

/-- The statements over the forms of the stores. -/
theorem wit_store_forms :
    staForm (.longx 0xFFFFFF) = some (.staLongx 0xFFFFFF) ∧ stxForm (.dpy 0xFF) = some (.stxDpy 0xFF) ∧
    styForm (.dpx 0xFF) = some (.styDpx 0xFF) ∧ stzForm (.absx 0xFFFF) = some (.stzAbsx 0xFFFF) := by decide

/-- LogicWritesAccumulator, AdcAddsWithCarry and SbcSubtractsWithBorrow. -/
theorem wit_accumulator_forms :
    oraForm (.mem (.sriy 0xFF)) = some (.oraSriy 0xFF) ∧ andAForm (.imm (.w8 0x0F)) = some (.andImmM (.w8 0x0F)) ∧
    eorForm (.mem (.dplong 0x00)) = some (.eorDplong 0x00) ∧ adcForm (.imm (.w16 1)) = some (.adcImmM (.w16 1)) ∧
    sbcForm (.mem (.dpindy 0xFF)) = some (.sbcDpindy 0xFF) := by decide

/-- CompareSetsFlagsOnly and BitTestsOperand: each clause. -/
theorem wit_test_forms :
    cmpForm (.mem (.long 0xFFFFFF)) = some (.cmpLong 0xFFFFFF) ∧ cpxForm (.imm (.w8 0)) = some (.cpxImmX (.w8 0)) ∧
    cpyForm (.mem (.abs 0)) = some (.cpyAbs 0) ∧ bitForm (.absx 0xFFFF) = some (.bitAbsx 0xFFFF) := by decide

/-- ShiftsModifyMemory and CountersAndBitsModifyMemory: each clause. -/
theorem wit_modify_forms :
    shiftForm .asl (.dp 0xFF) = some (.aslDp 0xFF) ∧ shiftForm .lsr (.abs 0) = some (.lsrAbs 0) ∧
    shiftForm .rol (.dpx 0) = some (.rolDpx 0) ∧ shiftForm .ror (.absx 0xFFFF) = some (.rorAbsx 0xFFFF) ∧
    incForm (.dp 0) = some (.incDp 0) ∧ decForm (.absx 0xFFFF) = some (.decAbsx 0xFFFF) ∧
    tsbForm (.dp 0xFF) = some (.tsbDp 0xFF) ∧ trbForm (.abs 0xFFFF) = some (.trbAbs 0xFFFF) := by decide

/-- BranchesGoToTarget: taken and not taken, at both ends of the displacement. -/
theorem wit_BranchesGoToTarget :
    branchForm wide (.bplRel8 0x80) = some (true, 0x80) ∧ branchForm wide (.beqRel8 0x7F) = some (false, 0x7F) ∧
    branchForm wide (.braRel8 0xFF) = some (true, 0xFF) := by decide

end Sys2Proof.Tests
end

section
/-! PROOFS. The family 00_scope.md: no instruction and no step faults, traps or is refused (R14). -/

namespace Sys2Proof.Proofs

open Sys2Proof.Machine

/-- The meaning that each of the 256 arms of the dispatcher calls is a state wrapped in `.next`, whatever the
operands and the state (R350, R400). -/
theorem exec_ends_in_next (i : Instr) (s : State) : ∃ t, exec i s = .next t := by
  cases i <;> exact ⟨_, rfl⟩

/-- Waiting and Stopped: the idle step (R367). -/
theorem step_of_not_running {s : State} (h : s.run ≠ .running) : step s = .next (idleStep s) := by
  simp only [step, if_neg h]

/-- Running, at an opcode byte this core does not implement: the byte is skipped (R355). -/
theorem step_of_unknownOp {s : State} (h : s.run = .running) (hop : s.unknownOp s.fetch8.1 = true) :
    step s = .next (unknownOpcode s.fetch8.1 s.pc s.fetch8.2) := by
  simp only [step, if_pos h, if_pos hop]

/-- Running, at an opcode byte this core implements: the fetched instruction runs (R350). -/
theorem step_of_knownOp {s : State} (h : s.run = .running) (hop : ¬ s.unknownOp s.fetch8.1 = true) :
    step s = exec (s.fetch8.2.fetchOperands s.fetch8.1).1 (s.fetch8.2.fetchOperands s.fetch8.1).2 := by
  simp only [step, if_pos h, if_neg hop]

/-- Idle, unknown opcode or instruction: each of the three paths of `step` ends in a next state. -/
theorem step_ends_in_next (s : State) : ∃ t, step s = .next t := by
  by_cases hrun : s.run = .running
  · by_cases hop : s.unknownOp s.fetch8.1 = true
    · exact ⟨_, step_of_unknownOp hrun hop⟩
    · rw [step_of_knownOp hrun hop]
      exact exec_ends_in_next _ _
  · exact ⟨_, step_of_not_running hrun⟩

/-- Settles O8: the outcome of every arm of `exec` is a next state, and `step` adds two paths that are one too. -/
theorem nothingFaults : Obligations.NothingFaults :=
  ⟨exec_ends_in_next, step_ends_in_next⟩

end Sys2Proof.Proofs
end

section
/-! PROOFS. The family 10_state.md: `Inv` (R39, R42, the canonical form of memory) under every named update of
the state. -/

namespace Sys2Proof.Proofs

open Sys2Proof.Machine Sys2Proof.Safety

/-- P rewritten with both width bits kept. -/
theorem inv_withP {s : State} {p : Byte} (h : Inv s) (hm : flagOf p .m = s.flag .m) (hx : flagOf p .x = s.flag .x) :
    Inv { s with p := p } := by
  obtain ⟨hemu, hzero, hwf⟩ := h
  refine ⟨fun he => ?_, fun hpol hf => hzero hpol (hx ▸ hf), hwf⟩
  obtain ⟨hfm, hfx, hrest⟩ := hemu he
  exact ⟨hm.trans hfm, hx.trans hfx, hrest⟩

/-- A memory write (R70). -/
theorem inv_memWrite {s : State} (h : Inv s) (a : Addr) (v : Byte) : Inv (s.memWrite a v) := by
  obtain ⟨hemu, hzero, hwf⟩ := h
  exact ⟨hemu, hzero, Memory.wf_write a.isLt hwf⟩

/-- S rewritten inside page $01 while E = 1. -/
theorem inv_withS {s : State} {v : Word} (h : Inv s) (hv : s.e = true → hi v = 0x01) : Inv { s with sp := v } := by
  obtain ⟨hemu, hzero, hwf⟩ := h
  refine ⟨fun he => ?_, hzero, hwf⟩
  obtain ⟨hm, hx, -, hix, hiy⟩ := hemu he
  exact ⟨hm, hx, hv he, hix, hiy⟩

theorem hi_spDown {s : State} (he : s.e = true) : hi s.spDown = 0x01 := by
  rw [State.spDown, if_pos he, hi_word]

theorem hi_spUp {s : State} (he : s.e = true) : hi s.spUp = 0x01 := by
  rw [State.spUp, if_pos he, hi_word]

theorem inv_writeS {s : State} (h : Inv s) (v : Word) : Inv (s.writeS v) :=
  inv_withS h fun he => by rw [if_pos he, hi_word]

theorem inv_push8 {s : State} (h : Inv s) (v : Byte) : Inv (s.push8 v) :=
  inv_withS (inv_memWrite h (addrOf 0x00 s.sp) v) hi_spDown

theorem inv_pull8 {s : State} (h : Inv s) : Inv s.pull8.2 :=
  show Inv { s with sp := s.spUp } from inv_withS h hi_spUp

/-- The index registers rewritten, with their high bytes $00 wherever they were $00 and P.X = 1. -/
theorem inv_withIndex {s : State} {x y : Word} (h : Inv s) (hx : s.flag .x = true → hi s.x = 0x00 → hi x = 0x00)
    (hy : s.flag .x = true → hi s.y = 0x00 → hi y = 0x00) : Inv { s with x := x, y := y } := by
  obtain ⟨hemu, hzero, hwf⟩ := h
  refine ⟨fun he => ?_, fun hpol hf => ?_, hwf⟩
  · obtain ⟨hm, hf, hsp, hix, hiy⟩ := hemu he
    exact ⟨hm, hf, hsp, hx hf hix, hy hf hiy⟩
  · obtain ⟨hix, hiy⟩ := hzero hpol hf
    exact ⟨hx hf hix, hy hf hiy⟩

/-- An index write at 8 bits leaves a high byte of $00 as it is, under both policies (R42). -/
theorem hi_indexWrite {s : State} {old : Word} (v : Word) (hf : s.flag .x = true) (ho : hi old = 0x00) :
    hi (s.indexWrite old v) = 0x00 := by
  rw [State.indexWrite, if_pos hf]
  cases s.params.indexNarrow
  · exact (hi_word _ _).trans ho
  · exact hi_zext _

theorem inv_writeX {s : State} (h : Inv s) (v : Word) : Inv (s.writeX v) :=
  inv_withIndex h (hi_indexWrite v) fun _ => id

theorem inv_writeY {s : State} (h : Inv s) (v : Word) : Inv (s.writeY v) :=
  inv_withIndex h (fun _ => id) (hi_indexWrite v)

/-- `v ||| 0x30` has both width bits set (R43). -/
theorem flagOf_or_widths (v : Byte) : flagOf (v ||| 0x30) .m = true ∧ flagOf (v ||| 0x30) .x = true := by
  simp [flagOf, Flag.bit]

/-- `setP` re-establishes both invariants, whatever it is given (R43). -/
theorem inv_setP {s : State} (h : Inv s) (v : Byte) : Inv (s.setP v) := by
  obtain ⟨hemu, -, hwf⟩ := h
  refine ⟨fun he => ?_, fun hpol hf => ?_, by rwa [State.setP_mem]⟩
  · rw [State.setP_e] at he
    obtain ⟨-, -, hsp, hix, hiy⟩ := hemu he
    rw [State.flag, State.flag, State.setP_p, if_pos he, State.setP_sp, State.setP_x, State.setP_y]
    refine ⟨(flagOf_or_widths v).1, (flagOf_or_widths v).2, hsp, ?_, ?_⟩ <;> split <;> simp [hix, hiy]
  · rw [State.flag, State.setP_p] at hf
    rw [State.setP_params] at hpol
    have hclears : s.setPClears v = true := by simp only [State.setPClears, hf, hpol]; rfl
    rw [State.setP_x, State.setP_y, if_pos hclears, if_pos hclears]
    exact ⟨hi_zext _, hi_zext _⟩

/-- Entering emulation mode establishes R39 from any state (R283). -/
theorem inv_enterEmulation {s : State} (hwf : Memory.wf s.mem = true) : Inv s.enterEmulation := by
  refine ⟨fun _ => ⟨?_, ?_, hi_word _ _, hi_zext _, hi_zext _⟩, fun _ _ => ⟨hi_zext _, hi_zext _⟩, hwf⟩ <;>
    simp [State.flag]

/-- XCE with the carry set enters emulation mode (R282). -/
theorem exchange_of_carry {s : State} (hc : s.flag .c = true) :
    exchangeCarryEmulation s = ({ s.putFlag .c s.e with e := s.flag .c } : State).enterEmulation := if_pos hc

/-- XCE with the carry clear leaves emulation mode and writes nothing but P.C (R282). -/
theorem exchange_of_no_carry {s : State} (hc : ¬ s.flag .c = true) :
    exchangeCarryEmulation s = { s.putFlag .c s.e with e := s.flag .c } := if_neg hc

/-- XCE: emulation mode is entered whole, and in native mode only the policy Zero binds (R282). -/
theorem inv_exchangeCarryEmulation {s : State} (h : Inv s) : Inv (exchangeCarryEmulation s) := by
  obtain ⟨-, hzero, hwf⟩ := h
  by_cases hc : s.flag .c = true
  · rw [exchange_of_carry hc]
    exact inv_enterEmulation hwf
  · rw [exchange_of_no_carry hc]
    refine ⟨fun he => absurd he hc, fun hpol hf => hzero hpol ?_, hwf⟩
    simpa [State.flag] using hf

end Sys2Proof.Proofs
end

section
/-! PROOFS. The family 10_state.md: one relation that every instruction's meaning meets, built up operation by
operation. -/

namespace Sys2Proof.Proofs

open Sys2Proof.Machine Sys2Proof.Safety

/-- From `s` to `t`, of the control registers only those in `ws` may have been written, the parameters and the
diagnostic records are kept, memory has changed by the recorded calls alone, and `Inv` is kept. -/
structure Confined (ws : Reg → Prop) (s t : State) : Prop where
  pbr : ¬ ws .pbr → t.pbr = s.pbr := by intros; rfl
  dbr : ¬ ws .dbr → t.dbr = s.dbr := by intros; rfl
  d : ¬ ws .d → t.d = s.d := by intros; rfl
  e : ¬ ws .e → t.e = s.e := by intros; rfl
  run : ¬ ws .run → t.run = s.run := by intros; rfl
  params : t.params = s.params := by rfl
  diag : t.diag = s.diag := by rfl
  calls : ∃ calls, t.trace = s.trace ++ calls ∧ t.mem = replay s.mem calls := by
    exact ⟨[], (List.append_nil _).symm, rfl⟩
  inv : Inv s → Inv t := by exact id

namespace Confined

variable {ws : Reg → Prop} {s t u : State}

theorem refl (ws : Reg → Prop) (s : State) : Confined ws s s := {}

theorem trans (h : Confined ws s t) (h' : Confined ws t u) : Confined ws s u where
  pbr hw := (h'.pbr hw).trans (h.pbr hw)
  dbr hw := (h'.dbr hw).trans (h.dbr hw)
  d hw := (h'.d hw).trans (h.d hw)
  e hw := (h'.e hw).trans (h.e hw)
  run hw := (h'.run hw).trans (h.run hw)
  params := h'.params.trans h.params
  diag := h'.diag.trans h.diag
  calls := by
    obtain ⟨c, hct, hcm⟩ := h.calls
    obtain ⟨c', hct', hcm'⟩ := h'.calls
    exact ⟨c ++ c', by rw [hct', hct, List.append_assoc], by rw [hcm', hcm, replay_append]⟩
  inv hi := h'.inv (h.inv hi)

/-! ### Registers and flags -/

theorem charge (h : Confined ws s t) (n : Nat) : Confined ws s (t.charge n) := h.trans {}

theorem withPc (h : Confined ws s t) (v : Word) : Confined ws s { t with pc := v } := h.trans {}

theorem withC (h : Confined ws s t) (v : Word) : Confined ws s { t with c := v } := h.trans {}

theorem writeA (h : Confined ws s t) (v : Word) : Confined ws s (t.writeA v) := h.trans {}

theorem writeX (h : Confined ws s t) (v : Word) : Confined ws s (t.writeX v) :=
  h.trans { inv := fun hi => inv_writeX hi v }

theorem writeY (h : Confined ws s t) (v : Word) : Confined ws s (t.writeY v) :=
  h.trans { inv := fun hi => inv_writeY hi v }

theorem writeS (h : Confined ws s t) (v : Word) : Confined ws s (t.writeS v) :=
  h.trans { inv := fun hi => inv_writeS hi v }

/-- P rewritten with both width bits kept. -/
theorem withP (h : Confined ws s t) {p : Byte} (hm : flagOf p .m = t.flag .m) (hx : flagOf p .x = t.flag .x) :
    Confined ws s { t with p := p } :=
  h.trans { inv := fun hi => inv_withP hi hm hx }

theorem putFlag (h : Confined ws s t) {f : Flag} (hm : f ≠ .m) (hx : f ≠ .x) (b : Bool) :
    Confined ws s (t.putFlag f b) :=
  h.withP ((flagOf_withFlag _ _ _ _).trans (if_neg hm.symm)) ((flagOf_withFlag _ _ _ _).trans (if_neg hx.symm))

theorem putNZ (h : Confined ws s t) (v : Word) (w : Width) : Confined ws s (t.putNZ v w) :=
  h.withP (flagOf_setNZ v w t.p .m) (flagOf_setNZ v w t.p .x)

theorem setP (h : Confined ws s t) (v : Byte) : Confined ws s (t.setP v) := by
  have hinv : Inv t → Inv (t.setP v) := fun hi => inv_setP hi v
  rw [State.setP_eq] at hinv ⊢
  exact h.trans { inv := hinv }

/-! ### The control registers -/

theorem withPbr (h : Confined ws s t) (hw : ws .pbr) (v : Byte) : Confined ws s { t with pbr := v } :=
  h.trans { pbr := absurd hw }

theorem withDbr (h : Confined ws s t) (hw : ws .dbr) (v : Byte) : Confined ws s { t with dbr := v } :=
  h.trans { dbr := absurd hw }

theorem withD (h : Confined ws s t) (hw : ws .d) (v : Word) : Confined ws s { t with d := v } :=
  h.trans { d := absurd hw }

theorem withRun (h : Confined ws s t) (hw : ws .run) (v : RunState) : Confined ws s { t with run := v } :=
  h.trans { run := absurd hw }

theorem jumpLong (h : Confined ws s t) (hw : ws .pbr) (a : Addr) : Confined ws s (t.jumpLong a) :=
  (h.withPbr hw (alBank a)).withPc (alOffset a)

/-- XCE writes E, and P, S, X and Y with it (R282, R283). -/
theorem exchange (h : Confined ws s t) (hw : ws .e) : Confined ws s (exchangeCarryEmulation t) := by
  have hinv : Inv t → Inv (exchangeCarryEmulation t) := inv_exchangeCarryEmulation
  by_cases hc : t.flag .c = true
  · rw [exchange_of_carry hc] at hinv ⊢
    exact h.trans { e := absurd hw, inv := hinv }
  · rw [exchange_of_no_carry hc] at hinv ⊢
    exact h.trans { e := absurd hw, inv := hinv }

/-! ### The collaborator's calls -/

theorem reads (h : Confined ws s t) (addrs : List Addr) : Confined ws s (afterReads t addrs) :=
  h.trans { calls := ⟨_, rfl, (replay_readEvents _ _ _).symm⟩ }

theorem memRead (h : Confined ws s t) (a : Addr) : Confined ws s (t.memRead a).2 :=
  h.trans { calls := ⟨_, rfl, rfl⟩ }

theorem memWrite (h : Confined ws s t) (a : Addr) (v : Byte) : Confined ws s (t.memWrite a v) :=
  h.trans { calls := ⟨_, rfl, rfl⟩, inv := fun hi => inv_memWrite hi a v }

theorem read16 (h : Confined ws s t) (q : Seq) (a : Addr) : Confined ws s (t.read16 q a).2 :=
  (h.memRead _).memRead _

theorem read24 (h : Confined ws s t) (q : Seq) (a : Addr) : Confined ws s (t.read24 q a).2 :=
  (h.read16 q a).memRead _

theorem readW (h : Confined ws s t) (q : Seq) (a : Addr) (w : Width) : Confined ws s (t.readW q a w).2 := by
  cases w with
  | w8 => exact h.memRead _
  | w16 => exact h.read16 q a

theorem writeW (h : Confined ws s t) (q : Seq) (a : Addr) (w : Width) (v : Word) :
    Confined ws s (t.writeW q a w v) := by
  cases w with
  | w8 => exact h.memWrite _ _
  | w16 => exact (h.memWrite _ _).memWrite _ _

theorem ea (h : Confined ws s t) (m : DataMode) : Confined ws s (t.ea m).st := by
  obtain ⟨addrs, hr⟩ := ea_reads t m
  exact hr ▸ h.reads addrs

theorem operandRead (h : Confined ws s t) (src : Operand) (w : Width) : Confined ws s (t.operandRead src w).st := by
  obtain ⟨addrs, hr⟩ := operandRead_reads t src w
  exact hr ▸ h.reads addrs

theorem operandWrite (h : Confined ws s t) (m : DataMode) (w : Width) (v : Word) :
    Confined ws s (t.operandWrite m w v) :=
  (h.ea m).writeW _ _ w v

theorem programPointer (h : Confined ws s t) (a : Word) : Confined ws s (t.programPointer a).2 :=
  (h.memRead _).memRead _

/-! ### The stack -/

theorem push8 (h : Confined ws s t) (v : Byte) : Confined ws s (t.push8 v) :=
  h.trans { calls := ⟨_, rfl, rfl⟩, inv := fun hi => inv_push8 hi v }

theorem pull8 (h : Confined ws s t) : Confined ws s t.pull8.2 :=
  h.trans { calls := ⟨_, rfl, rfl⟩, inv := inv_pull8 }

theorem push16 (h : Confined ws s t) (v : Word) : Confined ws s (t.push16 v) :=
  (h.push8 _).push8 _

theorem pull16 (h : Confined ws s t) : Confined ws s t.pull16.2 :=
  h.pull8.pull8

theorem pushW (h : Confined ws s t) (v : Word) (w : Width) : Confined ws s (t.pushW v w) := by
  cases w with
  | w8 => exact h.push8 _
  | w16 => exact h.push16 v

theorem pullW (h : Confined ws s t) (w : Width) : Confined ws s (t.pullW w).2 := by
  cases w with
  | w8 => exact h.pull8
  | w16 => exact h.pull16

/-- Interrupt entry writes PBR (R404). -/
theorem enterInterrupt (h : Confined ws s t) (hw : ws .pbr) (k : EntryKind) :
    Confined ws s (t.enterInterrupt k) := by
  have hpush : Confined ws s (if t.e then t else t.push8 t.pbr) := by
    split
    · exact h
    · exact h.push8 _
  have hp := ((hpush.push16 t.pc).push8 (t.pushedP k)).putFlag (f := .i) (by decide) (by decide) true
  exact (((hp.putFlag (f := .d) (by decide) (by decide) false).withPbr hw 0x00).read16 _ _).withPc _

/-- The return from an interrupt writes PBR in native mode only (R420). -/
theorem returnFromInterrupt (h : Confined ws s t) (hw : t.e = false → ws .pbr) :
    Confined ws s t.returnFromInterrupt := by
  have hpc := ((h.pull8.setP t.pull8.1).pull16).withPc (t.pull8.2.setP t.pull8.1).pull16.1
  cases he : t.e
  · rw [returnFromInterrupt_native t he]
    exact hpc.pull8.withPbr (hw he) _
  · rw [returnFromInterrupt_emulation t he]
    exact hpc

end Confined
end Sys2Proof.Proofs
end

section
/-! PROOFS. The family 10_state.md: each shared meaning is `Confined`, and with them every instruction. -/

namespace Sys2Proof.Proofs

open Sys2Proof.Machine Sys2Proof.Safety

/-! ### Reads and writes leave P -/

@[simp] theorem operandRead_p (s : State) (src : Operand) (w : Width) : (s.operandRead src w).st.p = s.p := by
  obtain ⟨addrs, h⟩ := operandRead_reads s src w
  rw [h]; rfl

@[simp] theorem ea_p (s : State) (m : DataMode) : (s.ea m).st.p = s.p := by
  obtain ⟨addrs, h⟩ := ea_reads s m
  rw [h]; rfl

@[simp] theorem readW_p (s : State) (q : Seq) (a : Addr) (w : Width) : (s.readW q a w).2.p = s.p := by
  rw [(readW_eq s q a w).2]; rfl

@[simp] theorem writeW_p (s : State) (q : Seq) (a : Addr) (w : Width) (v : Word) : (s.writeW q a w v).p = s.p := by
  rw [writeW_eq]; rfl

/-- The operations of R260 write no width bit of P. -/
def KeepsWidths (op : Width → Word → Byte → Word × Byte) : Prop :=
  ∀ w v p, flagOf (op w v p).2 .m = flagOf p .m ∧ flagOf (op w v p).2 .x = flagOf p .x

theorem keepsWidths_aslOp : KeepsWidths aslOp := by intro w v p; simp [aslOp]
theorem keepsWidths_lsrOp : KeepsWidths lsrOp := by intro w v p; simp [lsrOp]
theorem keepsWidths_rolOp : KeepsWidths rolOp := by intro w v p; simp [rolOp]
theorem keepsWidths_rorOp : KeepsWidths rorOp := by intro w v p; simp [rorOp]
theorem keepsWidths_incOp : KeepsWidths incOp := by intro w v p; simp [incOp]
theorem keepsWidths_decOp : KeepsWidths decOp := by intro w v p; simp [decOp]
theorem keepsWidths_tsbOp (a : Word) : KeepsWidths (tsbOp a) := by intro w v p; simp [tsbOp]
theorem keepsWidths_trbOp (a : Word) : KeepsWidths (trbOp a) := by intro w v p; simp [trbOp]

/-! ### The shared meanings -/

section Meanings

variable {ws : Reg → Prop} (s : State) (src : Operand) (m : DataMode) (base : Nat) (mods : List CycleMod)

/-- The state after the operand is read. -/
theorem confined_operand (w : Width) : Confined ws s (s.operandRead src w).st :=
  (Confined.refl ws s).operandRead src w

theorem confined_loadA : Confined ws s (loadA src base mods s) :=
  (((confined_operand s src _).writeA _).putNZ _ _).charge _

theorem confined_loadX : Confined ws s (loadX src base mods s) :=
  (((confined_operand s src _).writeX _).putNZ _ _).charge _

theorem confined_loadY : Confined ws s (loadY src base mods s) :=
  (((confined_operand s src _).writeY _).putNZ _ _).charge _

theorem confined_logicA (op : Word → Word → Word) : Confined ws s (logicA op src base mods s) :=
  (((confined_operand s src _).writeA _).putNZ _ _).charge _

/-- P rewritten after the operand is read and the accumulator written. -/
theorem confined_addFlags (o : AluOut) : Confined ws s
    { (s.operandRead src s.wA).st.writeA o.result with p := addFlags s.wA o s.p } :=
  ((confined_operand s src _).writeA _).withP (by simp [State.flag]) (by simp [State.flag])

theorem confined_addA : Confined ws s (addA src base mods s) := (confined_addFlags s src _).charge _

theorem confined_subA : Confined ws s (subA src base mods s) := (confined_addFlags s src _).charge _

theorem confined_compare (w : Width) (a b : Word) : Confined ws s
    { (s.operandRead src w).st with p := cmp w a b s.p } :=
  (confined_operand s src _).withP (by simp [State.flag]) (by simp [State.flag])

theorem confined_compareA : Confined ws s (compareA src base mods s) := (confined_compare s src _ _ _).charge _

theorem confined_compareX : Confined ws s (compareX src base mods s) := (confined_compare s src _ _ _).charge _

theorem confined_compareY : Confined ws s (compareY src base mods s) := (confined_compare s src _ _ _).charge _

theorem confined_bitMem : Confined ws s (bitMem m base mods s) :=
  ((confined_operand s (.mem m) _).withP (by simp [State.flag]) (by simp [State.flag])).charge _

theorem confined_bitImm (k : Imm) : Confined ws s (bitImm k base mods s) :=
  ((confined_operand s (.imm k) _).withP (by simp [State.flag]) (by simp [State.flag])).charge _

theorem confined_storeA : Confined ws s (storeA m base mods s) :=
  ((Confined.refl ws s).operandWrite m _ _).charge _

theorem confined_storeX : Confined ws s (storeX m base mods s) :=
  ((Confined.refl ws s).operandWrite m _ _).charge _

theorem confined_storeY : Confined ws s (storeY m base mods s) :=
  ((Confined.refl ws s).operandWrite m _ _).charge _

theorem confined_storeZero : Confined ws s (storeZero m base mods s) :=
  ((Confined.refl ws s).operandWrite m _ _).charge _

theorem confined_modifyMem {op : Width → Word → Byte → Word × Byte} (hop : KeepsWidths op) :
    Confined ws s (modifyMem op m base mods s) :=
  (((((Confined.refl ws s).ea m).readW _ _ _).writeW _ _ _ _).withP (by simp [State.flag, hop _ _ _])
    (by simp [State.flag, hop _ _ _])).charge _

theorem confined_modifyA {op : Width → Word → Byte → Word × Byte} (hop : KeepsWidths op) :
    Confined ws s (modifyA op base mods s) :=
  (((Confined.refl ws s).writeA _).withP (hop _ _ _).1 (hop _ _ _).2).charge _

theorem confined_countX (op : Width → Word → Word) : Confined ws s (countX op base mods s) :=
  (((Confined.refl ws s).writeX _).putNZ _ _).charge _

theorem confined_countY (op : Width → Word → Word) : Confined ws s (countY op base mods s) :=
  (((Confined.refl ws s).writeY _).putNZ _ _).charge _

theorem confined_transferX (v : Word) : Confined ws s (transferX v base mods s) :=
  (((Confined.refl ws s).writeX _).putNZ _ _).charge _

theorem confined_transferY (v : Word) : Confined ws s (transferY v base mods s) :=
  (((Confined.refl ws s).writeY _).putNZ _ _).charge _

theorem confined_transferA (v : Word) : Confined ws s (transferA v base mods s) :=
  (((Confined.refl ws s).writeA _).putNZ _ _).charge _

theorem confined_flagTo {f : Flag} (hm : f ≠ .m) (hx : f ≠ .x) (b : Bool) :
    Confined ws s (flagTo f b base mods s) :=
  ((Confined.refl ws s).putFlag hm hx b).charge _

theorem confined_branch (taken : Bool) (r : Byte) : Confined ws s (branch taken r base mods s) :=
  ((Confined.refl ws s).withPc _).charge _

theorem confined_blockStep (hw : ws .dbr) (delta : Word) (dst bank : Byte) :
    Confined ws s (blockStep delta dst bank s) :=
  (((((((Confined.refl ws s).withDbr hw dst).memRead _).memWrite _ _).writeX _).writeY _).withC _).withPc _

end Meanings

/-! ### Every instruction -/

/-- The control registers that an instruction may write, where `e` is E before it (R34, R35, R38, R44). -/
inductive Writes (e : Bool) : Instr → Reg → Prop
  | jmlLong (al : Addr) : Writes e (.jmlLong al) .pbr
  | jmlAbslongind (a : Word) : Writes e (.jmlAbslongind a) .pbr
  | jslLong (al : Addr) : Writes e (.jslLong al) .pbr
  | rtlImp : Writes e .rtlImp .pbr
  | rtiImp (he : e = false) : Writes e .rtiImp .pbr
  | brkSig8 (k : Byte) : Writes e (.brkSig8 k) .pbr
  | copSig8 (k : Byte) : Writes e (.copSig8 k) .pbr
  | plbImp : Writes e .plbImp .dbr
  | mvnBlk (dst src : Byte) : Writes e (.mvnBlk dst src) .dbr
  | mvpBlk (dst src : Byte) : Writes e (.mvpBlk dst src) .dbr
  | tcdImp : Writes e .tcdImp .d
  | pldImp : Writes e .pldImp .d
  | xceImp : Writes e .xceImp .e
  | waiImp : Writes e .waiImp .run
  | stpImp : Writes e .stpImp .run

/-- What each of the 256 instructions may do: its meaning, operation by operation. -/
theorem exec_confined (s : State) : ∀ i : Instr, ∃ t, exec i s = .next t ∧ Confined (Writes s.e i) s t
  | .ldaDpxind _ | .ldaSr _ | .ldaDp _ | .ldaDplong _ | .ldaImmM _ | .ldaAbs _ | .ldaLong _ | .ldaDpindy _ |
    .ldaDpind _ | .ldaSriy _ | .ldaDpx _ | .ldaDplongy _ | .ldaAbsy _ | .ldaAbsx _ | .ldaLongx _ =>
    ⟨_, rfl, confined_loadA s _ _ _⟩
  | .ldxImmX _ | .ldxDp _ | .ldxAbs _ | .ldxDpy _ | .ldxAbsy _ => ⟨_, rfl, confined_loadX s _ _ _⟩
  | .ldyImmX _ | .ldyDp _ | .ldyAbs _ | .ldyDpx _ | .ldyAbsx _ => ⟨_, rfl, confined_loadY s _ _ _⟩
  | .staDpxind _ | .staSr _ | .staDp _ | .staDplong _ | .staAbs _ | .staLong _ | .staDpindy _ | .staDpind _ |
    .staSriy _ | .staDpx _ | .staDplongy _ | .staAbsy _ | .staAbsx _ | .staLongx _ =>
    ⟨_, rfl, confined_storeA s _ _ _⟩
  | .stxDp _ | .stxAbs _ | .stxDpy _ => ⟨_, rfl, confined_storeX s _ _ _⟩
  | .styDp _ | .styAbs _ | .styDpx _ => ⟨_, rfl, confined_storeY s _ _ _⟩
  | .stzDp _ | .stzDpx _ | .stzAbs _ | .stzAbsx _ => ⟨_, rfl, confined_storeZero s _ _ _⟩
  | .taxImp | .tsxImp | .tyxImp => ⟨_, rfl, confined_transferX s _ _ _⟩
  | .txyImp | .tayImp => ⟨_, rfl, confined_transferY s _ _ _⟩
  | .txaImp | .tyaImp => ⟨_, rfl, confined_transferA s _ _ _⟩
  | .tscImp | .tdcImp | .xbaImp => ⟨_, rfl, (((Confined.refl _ s).withC _).putNZ _ _).charge _⟩
  | .tcdImp => ⟨_, rfl, (((Confined.refl _ s).withD .tcdImp _).putNZ _ _).charge _⟩
  | .tcsImp | .txsImp => ⟨_, rfl, ((Confined.refl _ s).writeS _).charge _⟩
  | .oraDpxind _ | .oraSr _ | .oraDp _ | .oraDplong _ | .oraImmM _ | .oraAbs _ | .oraLong _ | .oraDpindy _ |
    .oraDpind _ | .oraSriy _ | .oraDpx _ | .oraDplongy _ | .oraAbsy _ | .oraAbsx _ | .oraLongx _ |
    .andDpxind _ | .andSr _ | .andDp _ | .andDplong _ | .andImmM _ | .andAbs _ | .andLong _ | .andDpindy _ |
    .andDpind _ | .andSriy _ | .andDpx _ | .andDplongy _ | .andAbsy _ | .andAbsx _ | .andLongx _ |
    .eorDpxind _ | .eorSr _ | .eorDp _ | .eorDplong _ | .eorImmM _ | .eorAbs _ | .eorLong _ | .eorDpindy _ |
    .eorDpind _ | .eorSriy _ | .eorDpx _ | .eorDplongy _ | .eorAbsy _ | .eorAbsx _ | .eorLongx _ =>
    ⟨_, rfl, confined_logicA s _ _ _ _⟩
  | .adcDpxind _ | .adcSr _ | .adcDp _ | .adcDplong _ | .adcImmM _ | .adcAbs _ | .adcLong _ | .adcDpindy _ |
    .adcDpind _ | .adcSriy _ | .adcDpx _ | .adcDplongy _ | .adcAbsy _ | .adcAbsx _ | .adcLongx _ =>
    ⟨_, rfl, confined_addA s _ _ _⟩
  | .sbcDpxind _ | .sbcSr _ | .sbcDp _ | .sbcDplong _ | .sbcImmM _ | .sbcAbs _ | .sbcLong _ | .sbcDpindy _ |
    .sbcDpind _ | .sbcSriy _ | .sbcDpx _ | .sbcDplongy _ | .sbcAbsy _ | .sbcAbsx _ | .sbcLongx _ =>
    ⟨_, rfl, confined_subA s _ _ _⟩
  | .cmpDpxind _ | .cmpSr _ | .cmpDp _ | .cmpDplong _ | .cmpImmM _ | .cmpAbs _ | .cmpLong _ | .cmpDpindy _ |
    .cmpDpind _ | .cmpSriy _ | .cmpDpx _ | .cmpDplongy _ | .cmpAbsy _ | .cmpAbsx _ | .cmpLongx _ =>
    ⟨_, rfl, confined_compareA s _ _ _⟩
  | .cpxImmX _ | .cpxDp _ | .cpxAbs _ => ⟨_, rfl, confined_compareX s _ _ _⟩
  | .cpyImmX _ | .cpyDp _ | .cpyAbs _ => ⟨_, rfl, confined_compareY s _ _ _⟩
  | .bitDp _ | .bitAbs _ | .bitDpx _ | .bitAbsx _ => ⟨_, rfl, confined_bitMem s _ _ _⟩
  | .bitImmM _ => ⟨_, rfl, confined_bitImm s _ _ _⟩
  | .tsbDp _ | .tsbAbs _ => ⟨_, rfl, confined_modifyMem s _ _ _ (keepsWidths_tsbOp _)⟩
  | .aslDp _ | .aslAbs _ | .aslDpx _ | .aslAbsx _ => ⟨_, rfl, confined_modifyMem s _ _ _ keepsWidths_aslOp⟩
  | .trbDp _ | .trbAbs _ => ⟨_, rfl, confined_modifyMem s _ _ _ (keepsWidths_trbOp _)⟩
  | .rolDp _ | .rolAbs _ | .rolDpx _ | .rolAbsx _ => ⟨_, rfl, confined_modifyMem s _ _ _ keepsWidths_rolOp⟩
  | .lsrDp _ | .lsrAbs _ | .lsrDpx _ | .lsrAbsx _ => ⟨_, rfl, confined_modifyMem s _ _ _ keepsWidths_lsrOp⟩
  | .rorDp _ | .rorAbs _ | .rorDpx _ | .rorAbsx _ => ⟨_, rfl, confined_modifyMem s _ _ _ keepsWidths_rorOp⟩
  | .decDp _ | .decAbs _ | .decDpx _ | .decAbsx _ => ⟨_, rfl, confined_modifyMem s _ _ _ keepsWidths_decOp⟩
  | .incDp _ | .incAbs _ | .incDpx _ | .incAbsx _ => ⟨_, rfl, confined_modifyMem s _ _ _ keepsWidths_incOp⟩
  | .aslAcc => ⟨_, rfl, confined_modifyA s _ _ keepsWidths_aslOp⟩
  | .incAcc => ⟨_, rfl, confined_modifyA s _ _ keepsWidths_incOp⟩
  | .rolAcc => ⟨_, rfl, confined_modifyA s _ _ keepsWidths_rolOp⟩
  | .decAcc => ⟨_, rfl, confined_modifyA s _ _ keepsWidths_decOp⟩
  | .lsrAcc => ⟨_, rfl, confined_modifyA s _ _ keepsWidths_lsrOp⟩
  | .rorAcc => ⟨_, rfl, confined_modifyA s _ _ keepsWidths_rorOp⟩
  | .dexImp | .inxImp => ⟨_, rfl, confined_countX s _ _ _⟩
  | .deyImp | .inyImp => ⟨_, rfl, confined_countY s _ _ _⟩
  | .clcImp | .secImp | .cliImp | .seiImp | .clvImp | .cldImp | .sedImp =>
    ⟨_, rfl, confined_flagTo s _ _ (by decide) (by decide) _⟩
  | .repImm8 _ | .sepImm8 _ => ⟨_, rfl, ((Confined.refl _ s).setP _).charge _⟩
  | .xceImp => ⟨_, rfl, ((Confined.refl _ s).exchange .xceImp).charge _⟩
  | .phpImp | .phkImp | .phbImp => ⟨_, rfl, ((Confined.refl _ s).push8 _).charge _⟩
  | .phdImp | .perRel16 _ | .peaImm16 _ => ⟨_, rfl, ((Confined.refl _ s).push16 _).charge _⟩
  | .phaImp | .phyImp | .phxImp => ⟨_, rfl, ((Confined.refl _ s).pushW _ _).charge _⟩
  | .peiDpind _ => ⟨_, rfl, (((Confined.refl _ s).read16 _ _).push16 _).charge _⟩
  | .plpImp => ⟨_, rfl, ((Confined.refl _ s).pull8.setP _).charge _⟩
  | .pldImp => ⟨_, rfl, (((Confined.refl _ s).pull16.withD .pldImp _).putNZ _ _).charge _⟩
  | .plaImp => ⟨_, rfl, ((((Confined.refl _ s).pullW _).writeA _).putNZ _ _).charge _⟩
  | .plyImp => ⟨_, rfl, ((((Confined.refl _ s).pullW _).writeY _).putNZ _ _).charge _⟩
  | .plbImp => ⟨_, rfl, (((Confined.refl _ s).pull8.withDbr .plbImp _).putNZ _ _).charge _⟩
  | .plxImp => ⟨_, rfl, ((((Confined.refl _ s).pullW _).writeX _).putNZ _ _).charge _⟩
  | .bplRel8 _ | .bmiRel8 _ | .bvcRel8 _ | .bvsRel8 _ | .braRel8 _ | .bccRel8 _ | .bcsRel8 _ | .bneRel8 _ |
    .beqRel8 _ => ⟨_, rfl, confined_branch s _ _ _ _⟩
  | .jmpAbs _ | .brlRel16 _ => ⟨_, rfl, ((Confined.refl _ s).withPc _).charge _⟩
  | .jmpAbsind _ => ⟨_, rfl, (((Confined.refl _ s).read16 _ _).withPc _).charge _⟩
  | .jmpAbsxind _ => ⟨_, rfl, (((Confined.refl _ s).programPointer _).withPc _).charge _⟩
  | .jmlLong a => ⟨_, rfl, ((Confined.refl _ s).jumpLong (.jmlLong a) _).charge _⟩
  | .jmlAbslongind a => ⟨_, rfl, (((Confined.refl _ s).read24 _ _).jumpLong (.jmlAbslongind a) _).charge _⟩
  | .jsrAbs _ => ⟨_, rfl, (((Confined.refl _ s).push16 _).withPc _).charge _⟩
  | .jslLong a => ⟨_, rfl, ((((Confined.refl _ s).push8 _).push16 _).jumpLong (.jslLong a) _).charge _⟩
  | .rtsImp => ⟨_, rfl, ((Confined.refl _ s).pull16.withPc _).charge _⟩
  | .rtlImp => ⟨_, rfl, (((Confined.refl _ s).pull16.pull8.withPbr .rtlImp s.pull16.2.pull8.1).withPc
    (s.pull16.1 + 1)).charge _⟩
  | .jsrAbsxind _ => ⟨_, rfl, ((((Confined.refl _ s).push16 _).programPointer _).withPc _).charge _⟩
  | .brkSig8 k => ⟨_, rfl, ((Confined.refl _ s).enterInterrupt (.brkSig8 k) .brk).charge _⟩
  | .copSig8 k => ⟨_, rfl, ((Confined.refl _ s).enterInterrupt (.copSig8 k) .cop).charge _⟩
  | .rtiImp => ⟨_, rfl, ((Confined.refl _ s).returnFromInterrupt .rtiImp).charge _⟩
  | .mvnBlk dst src => ⟨_, rfl, (confined_blockStep s (.mvnBlk dst src) 1 dst src).charge _⟩
  | .mvpBlk dst src => ⟨_, rfl, (confined_blockStep s (.mvpBlk dst src) (-1) dst src).charge _⟩
  | .wdmImm8 _ | .nopImp => ⟨_, rfl, (Confined.refl _ s).charge _⟩
  | .waiImp => ⟨_, rfl, ((Confined.refl _ s).withRun .waiImp _).charge _⟩
  | .stpImp => ⟨_, rfl, ((Confined.refl _ s).withRun .stpImp _).charge _⟩

end Sys2Proof.Proofs
end

section
/-! PROOFS. The family 10_state.md: what every step and every host call keeps, and which instructions write the
control registers. -/

namespace Sys2Proof.Proofs

open Sys2Proof.Machine Sys2Proof.Safety

/-- `exec` keeps `Inv`, and the rest of `Confined`, wherever it leads. -/
theorem confined_of_exec {i : Instr} {s t : State} (h : exec i s = .next t) : Confined (Writes s.e i) s t := by
  obtain ⟨u, hu, hc⟩ := exec_confined s i
  obtain rfl : u = t := Host.Outcome.next.inj (hu.symm.trans h)
  exact hc

/-- Settles O13: `Confined` keeps the control registers that `Writes` does not list, and the cases of `Writes` are
the instructions that the statement names. -/
theorem controlRegisterWriters : Obligations.ControlRegisterWriters := by
  intro i s t h
  have hc := confined_of_exec h
  refine ⟨fun hne => ?_, fun hne => ?_, fun hne => ?_, fun hne => ?_, fun hne => ?_, hc.params, hc.diag⟩
  · cases not_imp_comm.1 hc.pbr hne <;> simp [*]
  · cases not_imp_comm.1 hc.dbr hne <;> simp
  · cases not_imp_comm.1 hc.d hne <;> simp
  · cases not_imp_comm.1 hc.e hne; rfl
  · cases not_imp_comm.1 hc.run hne <;> simp

/-- The bytes of an instruction are fetched by reads alone (R130). -/
theorem inv_fetch8 {s : State} (h : Inv s) : Inv s.fetch8.2 := h

theorem inv_fetchOperands {s : State} (h : Inv s) (op : Byte) : Inv (s.fetchOperands op).2 := by
  rw [fetchOperands_eq]; exact h

theorem inv_unknownOpcode {s : State} (h : Inv s) (op : Byte) (pc : Word) : Inv (unknownOpcode op pc s) := by
  unfold unknownOpcode
  split <;> exact h

/-- The three paths of `step`: idle and the unknown opcode touch nothing that `Inv` reads. -/
theorem inv_step {s t : State} (h : Inv s) (hstep : step s = .next t) : Inv t := by
  by_cases hrun : s.run = .running
  · by_cases hop : s.unknownOp s.fetch8.1 = true
    · rw [step_of_unknownOp hrun hop] at hstep
      exact Host.Outcome.next.inj hstep ▸ inv_unknownOpcode (inv_fetch8 h) _ _
    · rw [step_of_knownOp hrun hop] at hstep
      exact (confined_of_exec hstep).inv (inv_fetchOperands (inv_fetch8 h) _)
  · rw [step_of_not_running hrun] at hstep
    exact Host.Outcome.next.inj hstep ▸ h

/-- Settles O10. -/
theorem stepKeepsInvariants : Obligations.StepKeepsInvariants :=
  fun _ _ => inv_step

/-! ### Host calls -/

/-- The power-on pattern meets R39 by its own values: S is $01FF, X and Y are 0 and P is $34 (R450). -/
theorem inv_hostReset {s : State} (h : Inv s) : Inv (hostReset s) := by
  obtain ⟨-, -, hwf⟩ := h
  have hwidths : flagOf 0x34 .m = true ∧ flagOf 0x34 .x = true := by decide
  have hpage : hi 0x01FF = 0x01 := by decide
  have hindex : hi 0x0000 = 0x00 := by decide
  have hpow : Safety.Inv s.powerOn :=
    ⟨fun _ => ⟨hwidths.1, hwidths.2, hpage, hindex, hindex⟩, fun _ _ => ⟨hindex, hindex⟩, hwf⟩
  exact (((Confined.refl (fun _ => False) s.powerOn).read16 .bank0 0x00FFFC).withPc _).inv hpow

/-- A masked or ignored interrupt leaves at most the run state changed; a delivered one enters its handler (R410). -/
theorem inv_interrupt {s : State} (h : Inv s) (k : InterruptKind) : Inv (interrupt k s).2 := by
  have hrun := (Confined.refl (fun _ => True) s).withRun trivial .running
  unfold interrupt
  split
  · exact h
  · split
    · dsimp only; split <;> exact h
    · exact ((hrun.enterInterrupt trivial k.entry).charge _).inv h

theorem inv_hostCall {c : HostCall} {s t : State} (h : Inv s) (hcall : hostCall c s = .next t) : Inv t := by
  cases c with
  | step => exact inv_step h hcall
  | reset => exact Host.Outcome.next.inj hcall ▸ inv_hostReset h
  | interrupt k => exact Host.Outcome.next.inj hcall ▸ inv_interrupt h k
  | setX v => exact Host.Outcome.next.inj hcall ▸ inv_writeX h v
  | setY v => exact Host.Outcome.next.inj hcall ▸ inv_writeY h v
  | setS v => exact Host.Outcome.next.inj hcall ▸ inv_writeS h v
  | setP v => exact Host.Outcome.next.inj hcall ▸ inv_setP h v
  | setA v | setC v | setD v | setDbr v | setPbr v | setPc v => exact Host.Outcome.next.inj hcall ▸ h

/-- Settles O11, by induction on the calls. -/
theorem hostCallsKeepInvariants : Obligations.HostCallsKeepInvariants := by
  intro calls
  induction calls with
  | nil => exact fun s t h hrun => Host.Outcome.next.inj hrun ▸ h
  | cons c rest ih =>
    intro s t h hrun
    unfold hostRun at hrun
    split at hrun
    · next u hu => exact ih u t (inv_hostCall h hu) hrun
    · cases hrun
    · cases hrun

end Sys2Proof.Proofs
end

section
/-! PROOFS. The family 10_state.md: what a write of the accumulator or an index register leaves in the state. -/

namespace Sys2Proof.Proofs

open Sys2Proof.Machine Sys2Proof.Safety

/-! ### Frames -/

theorem keeps_refl (s : State) : Keeps [] [] s s := ⟨fun _ _ => rfl, fun _ _ => rfl, rfl, rfl⟩

theorem keeps_reads (s : State) (addrs : List Addr) : Keeps [] [] s (afterReads s addrs) :=
  ⟨fun r _ => by cases r <;> rfl, fun _ _ => rfl, rfl, rfl⟩

theorem keeps_operandRead (s : State) (src : Operand) (w : Width) : Keeps [] [] s (s.operandRead src w).st := by
  obtain ⟨addrs, h⟩ := operandRead_reads s src w
  exact h ▸ keeps_reads s addrs

theorem mem_operandRead (s : State) (src : Operand) (w : Width) : (s.operandRead src w).st.mem = s.mem := by
  obtain ⟨addrs, h⟩ := operandRead_reads s src w
  rw [h]; rfl

/-- Pulls write S only (R301). -/
theorem keeps_afterPulls (s : State) (n : Nat) : Keeps [.sp] [] s (afterPulls s n) := by
  refine ⟨fun r hr => ?_, fun _ _ => rfl, rfl, rfl⟩
  cases r
  case sp => exact absurd (.head _) hr
  all_goals rfl

theorem pulls_afterPulls (s : State) (n : Nat) : Pulls n s (afterPulls s n) := ⟨memKept_of_eq rfl, rfl, rfl⟩

/-- One more register and some flags written after a frame. -/
theorem keeps_write {rs : List Reg} {fs : List Flag} {s u t : State} {q : Reg} (hu : Keeps rs [] s u)
    (hr : ∀ r, r ≠ q → reg t r = reg u r) (hf : ∀ f, f ∉ fs → t.flag f = u.flag f) (hd : t.diag = u.diag)
    (hp : t.params = u.params) : Keeps (q :: rs) fs s t := by
  obtain ⟨hur, huf, hud, hup⟩ := hu
  refine ⟨fun r h => ?_, fun f h => ?_, hd.trans hud, hp.trans hup⟩
  · rw [List.mem_cons, not_or] at h
    exact (hr r h.1).trans (hur r h.2)
  · exact (hf f h).trans (huf f List.not_mem_nil)

/-- A frame that leaves every flag leaves P. -/
theorem p_of_keeps {rs : List Reg} {s u : State} (hu : Keeps rs [] s u) : u.p = s.p := by
  obtain ⟨-, hf, -, -⟩ := hu
  exact status_ext fun f => hf f List.not_mem_nil

/-! ### N and Z -/

/-- `setNZ` writes N and Z only. -/
theorem flagOf_setNZ_other (v : Word) (w : Width) (p : Byte) {f : Flag} (h : f ∉ [Flag.n, .z]) :
    flagOf (setNZ v w p) f = flagOf p f := by
  simp only [List.mem_cons, List.not_mem_nil, or_false, not_or] at h
  rw [flagOf_setNZ, if_neg h.1, if_neg h.2]

/-- The N and Z that a meaning writes, as arithmetic; they depend on the value at the width only. -/
theorem nz_of_flags {t : State} {v v' : Word} {w : Width} (hn : t.flag .n = v'.getLsbD (w.bits - 1))
    (hz : t.flag .z = (w.trunc v' == 0)) (hv : w.trunc v' = w.trunc v) : NZ t v w := by
  have hmod := congrArg BitVec.toNat hv
  rw [trunc_toNat, trunc_toNat] at hmod
  exact ⟨by rw [hz, zero_eq, hmod], by rw [hn, sign_eq, hmod]⟩

theorem nz_of_setNZ {t : State} {p : Byte} {v v' : Word} {w : Width} (hp : t.p = setNZ v' w p)
    (hv : w.trunc v' = w.trunc v) : NZ t v w :=
  nz_of_flags (by simp [State.flag, hp]) (by simp [State.flag, hp]) hv

/-! ### The accumulator -/

/-- A write of the accumulator and P after a frame that keeps both: all that it does. -/
theorem writeA_effect {rs : List Reg} {fs : List Flag} {s u : State} {p : Byte} (hu : Keeps rs [] s u)
    (hc : .c ∉ rs) (hk : ∀ f, f ∉ fs → flagOf p f = s.flag f) (v : Word) (n : Nat) :
    WritesA s ({ u.writeA v with p := p }.charge n) v ∧
      Keeps (.c :: rs) fs s ({ u.writeA v with p := p }.charge n) := by
  have hp := p_of_keeps hu
  have hm : u.flag .m = s.flag .m := congrArg (flagOf · .m) hp
  have huc : u.c = s.c := BitVec.eq_of_toNat_eq (hu.1 .c hc)
  constructor
  · show if s.flag .m then lo (u.writeA v).c = lo v ∧ hi (u.writeA v).c = hi s.c else (u.writeA v).c = v
    rw [State.writeA_c, hm, huc]
    cases s.flag .m <;> simp
  · refine keeps_write hu (fun r hr => ?_) (fun f hf => (hk f hf).trans ?_) rfl rfl
    · cases r
      case c => exact absurd rfl hr
      all_goals rfl
    · exact congrArg (flagOf · f) hp.symm

/-- What `WritesA` says depends on the value at the accumulator's width only. -/
theorem writesA_congr {s t : State} {v v' : Word} (h : WritesA s t v) (hv : s.wA.trunc v = s.wA.trunc v') :
    WritesA s t v' := by
  unfold WritesA at h ⊢
  unfold State.wA at hv
  cases hm : s.flag .m <;> simp only [hm] at h hv ⊢
  · exact h.trans hv
  · have hlo : lo v = lo v' := by rw [← lo_trunc .w8 v, ← lo_trunc .w8 v']; exact congrArg lo hv
    exact ⟨h.1.trans hlo, h.2⟩

/-! ### The index registers -/

/-- An index write is what R42 says, in the words of the statements. -/
theorem writesIndex_indexWrite (s : State) (old v : Word) : WritesIndex s old (s.indexWrite old v) v := by
  unfold WritesIndex State.indexWrite
  cases s.flag .x <;> cases s.params.indexNarrow <;> simp

theorem indexWrite_of_keeps {rs : List Reg} {s u : State} (hu : Keeps rs [] s u) (old v : Word) :
    u.indexWrite old v = s.indexWrite old v := by
  have hx : u.flag .x = s.flag .x := congrArg (flagOf · .x) (p_of_keeps hu)
  obtain ⟨-, -, -, hparams⟩ := hu
  rw [State.indexWrite, State.indexWrite, hx, hparams]

/-- A write of X and P after a frame that keeps both. -/
theorem writeX_effect {rs : List Reg} {fs : List Flag} {s u : State} {p : Byte} (hu : Keeps rs [] s u)
    (hx : .x ∉ rs) (hk : ∀ f, f ∉ fs → flagOf p f = s.flag f) (v : Word) (n : Nat) :
    WritesIndex s s.x ({ u.writeX v with p := p }.charge n).x v ∧
      Keeps (.x :: rs) fs s ({ u.writeX v with p := p }.charge n) := by
  have hux : u.x = s.x := BitVec.eq_of_toNat_eq (hu.1 .x hx)
  constructor
  · show WritesIndex s s.x (u.indexWrite u.x v) v
    rw [indexWrite_of_keeps hu, hux]
    exact writesIndex_indexWrite s s.x v
  · refine keeps_write hu (fun r hr => ?_) (fun f hf => (hk f hf).trans ?_) rfl rfl
    · cases r
      case x => exact absurd rfl hr
      all_goals rfl
    · exact congrArg (flagOf · f) (p_of_keeps hu).symm

/-- A write of Y and P after a frame that keeps both. -/
theorem writeY_effect {rs : List Reg} {fs : List Flag} {s u : State} {p : Byte} (hu : Keeps rs [] s u)
    (hy : .y ∉ rs) (hk : ∀ f, f ∉ fs → flagOf p f = s.flag f) (v : Word) (n : Nat) :
    WritesIndex s s.y ({ u.writeY v with p := p }.charge n).y v ∧
      Keeps (.y :: rs) fs s ({ u.writeY v with p := p }.charge n) := by
  have huy : u.y = s.y := BitVec.eq_of_toNat_eq (hu.1 .y hy)
  constructor
  · show WritesIndex s s.y (u.indexWrite u.y v) v
    rw [indexWrite_of_keeps hu, huy]
    exact writesIndex_indexWrite s s.y v
  · refine keeps_write hu (fun r hr => ?_) (fun f hf => (hk f hf).trans ?_) rfl rfl
    · cases r
      case y => exact absurd rfl hr
      all_goals rfl
    · exact congrArg (flagOf · f) (p_of_keeps hu).symm

end Sys2Proof.Proofs
end

section
/-! PROOFS. The family 10_state.md: the loads, logic and arithmetic in every form, the transfers into the index
registers and their counters. -/

namespace Sys2Proof.Proofs

open Sys2Proof.Machine Sys2Proof.Safety

/-! ### A register written with its N and Z -/

theorem setNZ_keeps_flags {rs : List Reg} {s u : State} (hu : Keeps rs [] s u) (v : Word) (w : Width) (f : Flag)
    (hf : f ∉ [Flag.n, .z]) : flagOf (setNZ v w u.p) f = s.flag f := by
  rw [flagOf_setNZ_other v w u.p hf, p_of_keeps hu]; rfl

theorem writeA_putNZ_effect {rs : List Reg} {s u : State} (hu : Keeps rs [] s u) (hc : .c ∉ rs) (v : Word)
    (n : Nat) :
    let t := ((u.writeA v).putNZ v s.wA).charge n
    WritesA s t v ∧ NZ t v s.wA ∧ Keeps (.c :: rs) [.n, .z] s t := by
  obtain ⟨hw, hk⟩ := writeA_effect hu hc (setNZ_keeps_flags hu v s.wA) v n
  exact ⟨hw, nz_of_setNZ rfl rfl, hk⟩

/-- `v'` is what the meaning takes N and Z from: the value at the index width. -/
theorem writeX_putNZ_effect {rs : List Reg} {s u : State} (hu : Keeps rs [] s u) (hx : .x ∉ rs) {v v' : Word}
    (hv : s.wX.trunc v' = s.wX.trunc v) (n : Nat) :
    let t := ((u.writeX v).putNZ v' s.wX).charge n
    WritesIndex s s.x t.x v ∧ NZ t v s.wX ∧ Keeps (.x :: rs) [.n, .z] s t := by
  obtain ⟨hw, hk⟩ := writeX_effect hu hx (setNZ_keeps_flags hu v' s.wX) v n
  exact ⟨hw, nz_of_setNZ rfl hv, hk⟩

theorem writeY_putNZ_effect {rs : List Reg} {s u : State} (hu : Keeps rs [] s u) (hy : .y ∉ rs) {v v' : Word}
    (hv : s.wX.trunc v' = s.wX.trunc v) (n : Nat) :
    let t := ((u.writeY v).putNZ v' s.wX).charge n
    WritesIndex s s.y t.y v ∧ NZ t v s.wX ∧ Keeps (.y :: rs) [.n, .z] s t := by
  obtain ⟨hw, hk⟩ := writeY_effect hu hy (setNZ_keeps_flags hu v' s.wX) v n
  exact ⟨hw, nz_of_setNZ rfl hv, hk⟩

/-! ### The meaning of each form (opcode_table.json) -/

theorem exec_ldaForm {src : Operand} {i : Instr} (h : ldaForm src = some i) (s : State) :
    ∃ base mods, exec i s = .next (loadA src base mods s) := by
  rcases src with k | m
  · cases h; exact ⟨_, _, rfl⟩
  · cases m <;> cases h <;> exact ⟨_, _, rfl⟩

theorem exec_ldxForm {src : Operand} {i : Instr} (h : ldxForm src = some i) (s : State) :
    ∃ base mods, exec i s = .next (loadX src base mods s) := by
  rcases src with k | m
  · cases h; exact ⟨_, _, rfl⟩
  · cases m <;> cases h <;> exact ⟨_, _, rfl⟩

theorem exec_ldyForm {src : Operand} {i : Instr} (h : ldyForm src = some i) (s : State) :
    ∃ base mods, exec i s = .next (loadY src base mods s) := by
  rcases src with k | m
  · cases h; exact ⟨_, _, rfl⟩
  · cases m <;> cases h <;> exact ⟨_, _, rfl⟩

theorem exec_oraForm {src : Operand} {i : Instr} (h : oraForm src = some i) (s : State) :
    ∃ base mods, exec i s = .next (logicA orWord src base mods s) := by
  rcases src with k | m
  · cases h; exact ⟨_, _, rfl⟩
  · cases m <;> cases h <;> exact ⟨_, _, rfl⟩

theorem exec_andAForm {src : Operand} {i : Instr} (h : andAForm src = some i) (s : State) :
    ∃ base mods, exec i s = .next (logicA andWord src base mods s) := by
  rcases src with k | m
  · cases h; exact ⟨_, _, rfl⟩
  · cases m <;> cases h <;> exact ⟨_, _, rfl⟩

theorem exec_eorForm {src : Operand} {i : Instr} (h : eorForm src = some i) (s : State) :
    ∃ base mods, exec i s = .next (logicA xorWord src base mods s) := by
  rcases src with k | m
  · cases h; exact ⟨_, _, rfl⟩
  · cases m <;> cases h <;> exact ⟨_, _, rfl⟩

theorem exec_adcForm {src : Operand} {i : Instr} (h : adcForm src = some i) (s : State) :
    ∃ base mods, exec i s = .next (addA src base mods s) := by
  rcases src with k | m
  · cases h; exact ⟨_, _, rfl⟩
  · cases m <;> cases h <;> exact ⟨_, _, rfl⟩

theorem exec_sbcForm {src : Operand} {i : Instr} (h : sbcForm src = some i) (s : State) :
    ∃ base mods, exec i s = .next (subA src base mods s) := by
  rcases src with k | m
  · cases h; exact ⟨_, _, rfl⟩
  · cases m <;> cases h <;> exact ⟨_, _, rfl⟩

/-! ### Loads -/

/-- Settles O34. -/
theorem ldaLoadsAccumulator : Obligations.LdaLoadsAccumulator := by
  intro s src i hform f
  obtain ⟨base, mods, hexec⟩ := exec_ldaForm hform s
  obtain ⟨hw, hnz, hk⟩ := writeA_putNZ_effect (keeps_operandRead s src s.wA) List.not_mem_nil f.val
    (s.cost base mods f.info)
  exact ⟨_, hexec, hw, hnz, hk, memKept_of_eq (mem_operandRead s src s.wA), rfl⟩

/-- Settles O35. -/
theorem ldxLdyLoadIndex : Obligations.LdxLdyLoadIndex := by
  intro s src i f
  have hu := keeps_operandRead s src s.wX
  have hmem := mem_operandRead s src s.wX
  constructor
  · intro hform
    obtain ⟨base, mods, hexec⟩ := exec_ldxForm hform s
    obtain ⟨hw, hnz, hk⟩ := writeX_putNZ_effect hu List.not_mem_nil (v := f.val) rfl (s.cost base mods f.info)
    exact ⟨_, hexec, hw, hnz, hk, memKept_of_eq hmem, rfl⟩
  · intro hform
    obtain ⟨base, mods, hexec⟩ := exec_ldyForm hform s
    obtain ⟨hw, hnz, hk⟩ := writeY_putNZ_effect hu List.not_mem_nil (v := f.val) rfl (s.cost base mods f.info)
    exact ⟨_, hexec, hw, hnz, hk, memKept_of_eq hmem, rfl⟩

/-! ### Logic -/

/-- Where an operation works bit by bit, its low byte needs only the low byte of the accumulator. -/
theorem trunc_readA {op : Word → Word → Word} (hop : ∀ a b, lo (op (zext (lo a)) b) = lo (op a b)) (s : State)
    (v : Word) : s.wA.trunc (op s.readA v) = s.wA.trunc (op s.c v) := by
  unfold State.wA State.readA
  cases s.flag .m
  · rfl
  · exact congrArg zext (hop s.c v)

theorem lo_orWord (a b : Word) : lo (orWord (zext (lo a)) b) = lo (orWord a b) := by
  have h : ∀ x y, lo (orWord x y) = lo x ||| lo y := fun x y => BitVec.extractLsb'_or
  rw [h, h, lo_zext]

theorem lo_andWord (a b : Word) : lo (andWord (zext (lo a)) b) = lo (andWord a b) := by
  have h : ∀ x y, lo (andWord x y) = lo x &&& lo y := fun x y => BitVec.extractLsb'_and
  rw [h, h, lo_zext]

theorem lo_xorWord (a b : Word) : lo (xorWord (zext (lo a)) b) = lo (xorWord a b) := by
  have h : ∀ x y, lo (xorWord x y) = lo x ^^^ lo y := fun x y => BitVec.extractLsb'_xor
  rw [h, h, lo_zext]

/-- ORA, AND and EOR at once (R240 to R242). -/
theorem logicA_effect {op : Word → Word → Word} (hop : ∀ a b, lo (op (zext (lo a)) b) = lo (op a b)) (s : State)
    (src : Operand) (base : Nat) (mods : List CycleMod) :
    let f := s.operandRead src s.wA
    let t := logicA op src base mods s
    WritesA s t (op s.c f.val) ∧ NZ t (op s.c f.val) s.wA ∧ Keeps [.c] [.n, .z] s t ∧ MemKeptBut [] s t ∧
      t.trace = f.st.trace := by
  intro f t
  have htrunc := trunc_readA hop s f.val
  obtain ⟨hw, -, hk⟩ := writeA_putNZ_effect (keeps_operandRead s src s.wA) List.not_mem_nil (op s.readA f.val)
    (s.cost base mods f.info)
  exact ⟨writesA_congr hw htrunc, nz_of_setNZ rfl htrunc, hk, memKept_of_eq (mem_operandRead s src s.wA), rfl⟩

/-- Settles O41. -/
theorem logicWritesAccumulator : Obligations.LogicWritesAccumulator := by
  intro s src i f gives
  refine ⟨fun hform => ?_, fun hform => ?_, fun hform => ?_⟩
  · obtain ⟨base, mods, hexec⟩ := exec_oraForm hform s
    exact ⟨_, hexec, logicA_effect lo_orWord s src base mods⟩
  · obtain ⟨base, mods, hexec⟩ := exec_andAForm hform s
    exact ⟨_, hexec, logicA_effect lo_andWord s src base mods⟩
  · obtain ⟨base, mods, hexec⟩ := exec_eorForm hform s
    exact ⟨_, hexec, logicA_effect lo_xorWord s src base mods⟩

/-! ### Addition and subtraction -/

/-- `addFlags` writes N, V, Z and C only. -/
theorem flagOf_addFlags_other (w : Width) (o : AluOut) (p : Byte) {f : Flag} (h : f ∉ [Flag.n, .v, .z, .c]) :
    flagOf (addFlags w o p) f = flagOf p f := by
  simp only [List.mem_cons, List.not_mem_nil, or_false, not_or] at h
  obtain ⟨hn, hv, hz, hc⟩ := h
  simp [hn, hv, hz, hc]

/-- The result of an addition or subtraction, written to the accumulator with its four flags (R243, R244). -/
theorem writeA_addFlags_effect (s : State) (src : Operand) (o : AluOut) (n : Nat) :
    let f := s.operandRead src s.wA
    let t := { f.st.writeA o.result with p := addFlags s.wA o s.p }.charge n
    WritesA s t o.result ∧ t.flag .c = o.c ∧ t.flag .v = o.v ∧ NZ t o.result s.wA ∧
      Keeps [.c] [.n, .v, .z, .c] s t ∧ MemKeptBut [] s t ∧ t.trace = f.st.trace := by
  intro f t
  have hflag : ∀ g, t.flag g = flagOf (addFlags s.wA o s.p) g := fun g => rfl
  obtain ⟨hw, hk⟩ := writeA_effect (keeps_operandRead s src s.wA) List.not_mem_nil
    (fun g hg => flagOf_addFlags_other s.wA o s.p hg) o.result n
  refine ⟨hw, ?_, ?_, nz_of_flags ?_ ?_ rfl, hk, memKept_of_eq (mem_operandRead s src s.wA), rfl⟩ <;>
    rw [hflag, flagOf_addFlags] <;> rfl

/-- Settles O42: P.D selects the adder of the meaning as it does in the statement. -/
theorem adcAddsWithCarry : Obligations.AdcAddsWithCarry := by
  intro s src i hform f o
  obtain ⟨base, mods, hexec⟩ := exec_adcForm hform s
  have ho : o = if s.flag .d then addDec s.wA s.readA f.val (s.flag .c)
      else addBin s.wA s.readA f.val (s.flag .c) := by
    simp only [o]; split <;> rfl
  rw [ho]
  exact ⟨_, hexec, writeA_addFlags_effect s src _ _⟩

/-- Settles O43. -/
theorem sbcSubtractsWithBorrow : Obligations.SbcSubtractsWithBorrow := by
  intro s src i hform f o
  obtain ⟨base, mods, hexec⟩ := exec_sbcForm hform s
  have ho : o = if s.flag .d then subDec s.wA s.readA f.val (s.flag .c)
      else subBin s.wA s.readA f.val (s.flag .c) := by
    simp only [o]; split <;> rfl
  rw [ho]
  exact ⟨_, hexec, writeA_addFlags_effect s src _ _⟩

/-! ### Transfers into the index registers, and the counters -/

/-- What reads back from X after a write of `v` is `v` at the index width (R42). -/
theorem readX_writeX (s : State) (v : Word) : (s.writeX v).readX = s.wX.trunc v := by
  show (if s.flag .x then zext (lo (s.indexWrite s.x v)) else s.indexWrite s.x v) = _
  unfold State.indexWrite State.wX
  cases s.flag .x <;> cases s.params.indexNarrow <;> simp [Width.trunc]

theorem readY_writeY (s : State) (v : Word) : (s.writeY v).readY = s.wX.trunc v := by
  show (if s.flag .x then zext (lo (s.indexWrite s.y v)) else s.indexWrite s.y v) = _
  unfold State.indexWrite State.wX
  cases s.flag .x <;> cases s.params.indexNarrow <;> simp [Width.trunc]

/-- A register read at the index width is the register cut to it. -/
theorem readX_eq_trunc (s : State) : s.readX = s.wX.trunc s.x := by
  unfold State.readX State.wX
  cases s.flag .x <;> rfl

theorem readY_eq_trunc (s : State) : s.readY = s.wX.trunc s.y := by
  unfold State.readY State.wX
  cases s.flag .x <;> rfl

/-- An index write depends on the value at the index width only (R42). -/
theorem indexWrite_congr {s : State} {v v' : Word} (h : s.wX.trunc v' = s.wX.trunc v) (old : Word) :
    s.indexWrite old v' = s.indexWrite old v := by
  unfold State.wX at h
  unfold State.indexWrite
  cases hx : s.flag .x <;> simp only [hx, if_true, if_false, Bool.false_eq_true] at h ⊢
  · exact h
  · have hlo : lo v' = lo v := by rw [← lo_trunc .w8 v', ← lo_trunc .w8 v]; exact congrArg lo h
    rw [hlo]

/-- A transfer into X of a value that is `v` at the index width. -/
theorem transferX_effect {s : State} {v v' : Word} (h : s.wX.trunc v' = s.wX.trunc v) (base : Nat)
    (mods : List CycleMod) :
    let t := transferX v' base mods s
    WritesIndex s s.x t.x v ∧ NZ t v s.wX ∧ Keeps [.x] [.n, .z] s t ∧ MemKeptBut [] s t ∧ t.trace = s.trace := by
  intro t
  have hsrc : s.writeX v' = s.writeX v := by rw [State.writeX, State.writeX, indexWrite_congr h]
  have ht : t = ((s.writeX v).putNZ (s.writeX v).readX s.wX).charge (s.cost base mods .none) := by
    simp only [t, transferX, hsrc]
  have hread : s.wX.trunc (s.writeX v).readX = s.wX.trunc v := by rw [readX_writeX, trunc_trunc]
  obtain ⟨hw, hnz, hk⟩ := writeX_putNZ_effect (keeps_refl s) List.not_mem_nil hread (s.cost base mods .none)
  rw [ht]
  exact ⟨hw, hnz, hk, memKept_of_eq rfl, rfl⟩

/-- A transfer into Y of a value that is `v` at the index width. -/
theorem transferY_effect {s : State} {v v' : Word} (h : s.wX.trunc v' = s.wX.trunc v) (base : Nat)
    (mods : List CycleMod) :
    let t := transferY v' base mods s
    WritesIndex s s.y t.y v ∧ NZ t v s.wX ∧ Keeps [.y] [.n, .z] s t ∧ MemKeptBut [] s t ∧ t.trace = s.trace := by
  intro t
  have hsrc : s.writeY v' = s.writeY v := by rw [State.writeY, State.writeY, indexWrite_congr h]
  have ht : t = ((s.writeY v).putNZ (s.writeY v).readY s.wX).charge (s.cost base mods .none) := by
    simp only [t, transferY, hsrc]
  have hread : s.wX.trunc (s.writeY v).readY = s.wX.trunc v := by rw [readY_writeY, trunc_trunc]
  obtain ⟨hw, hnz, hk⟩ := writeY_putNZ_effect (keeps_refl s) List.not_mem_nil hread (s.cost base mods .none)
  rw [ht]
  exact ⟨hw, hnz, hk, memKept_of_eq rfl, rfl⟩

/-- Settles O38: TYX and TXY read their source at the index width, the others read all 16 bits. -/
theorem transfersIntoIndex : Obligations.TransfersIntoIndex := by
  intro s intoX intoY
  have hx : s.wX.trunc s.readX = s.wX.trunc s.x := by rw [readX_eq_trunc, trunc_trunc]
  have hy : s.wX.trunc s.readY = s.wX.trunc s.y := by rw [readY_eq_trunc, trunc_trunc]
  exact ⟨⟨_, rfl, transferX_effect rfl 2 []⟩, ⟨_, rfl, transferX_effect hy 2 []⟩,
    ⟨_, rfl, transferX_effect rfl 2 []⟩, ⟨_, rfl, transferY_effect rfl 2 []⟩, ⟨_, rfl, transferY_effect hx 2 []⟩⟩

/-- `Inc` and `Dec` are the counters of the statements (R178). -/
theorem inc_eq_counted (w : Width) (v : Word) : inc w v = BitVec.ofNat 16 (counted w.bits v.toNat true) := by
  apply BitVec.eq_of_toNat_eq
  rw [inc_toNat, BitVec.toNat_ofNat]
  cases w <;> simp only [counted, Width.bits, if_true] <;> omega

theorem dec_eq_counted (w : Width) (v : Word) : dec w v = BitVec.ofNat 16 (counted w.bits v.toNat false) := by
  apply BitVec.eq_of_toNat_eq
  rw [dec_toNat, BitVec.toNat_ofNat]
  cases w <;> simp only [counted, Width.bits, Bool.false_eq_true, if_false] <;> omega

theorem countX_effect {op : Width → Word → Word} {s : State} {v : Word} (h : op s.wX s.readX = v) (base : Nat)
    (mods : List CycleMod) :
    let t := countX op base mods s
    WritesIndex s s.x t.x v ∧ NZ t v s.wX ∧ Keeps [.x] [.n, .z] s t ∧ MemKeptBut [] s t ∧ t.trace = s.trace := by
  subst h
  obtain ⟨hw, hnz, hk⟩ := writeX_putNZ_effect (keeps_refl s) List.not_mem_nil (v := op s.wX s.readX) rfl
    (s.cost base mods .none)
  exact ⟨hw, hnz, hk, memKept_of_eq rfl, rfl⟩

theorem countY_effect {op : Width → Word → Word} {s : State} {v : Word} (h : op s.wX s.readY = v) (base : Nat)
    (mods : List CycleMod) :
    let t := countY op base mods s
    WritesIndex s s.y t.y v ∧ NZ t v s.wX ∧ Keeps [.y] [.n, .z] s t ∧ MemKeptBut [] s t ∧ t.trace = s.trace := by
  subst h
  obtain ⟨hw, hnz, hk⟩ := writeY_putNZ_effect (keeps_refl s) List.not_mem_nil (v := op s.wX s.readY) rfl
    (s.cost base mods .none)
  exact ⟨hw, hnz, hk, memKept_of_eq rfl, rfl⟩

/-- Settles O49. -/
theorem indexRegistersCount : Obligations.IndexRegistersCount := by
  intro s up quiet x y
  cases up with
  | true =>
    exact ⟨⟨_, rfl, countX_effect (inc_eq_counted s.wX s.readX) 2 []⟩,
      ⟨_, rfl, countY_effect (inc_eq_counted s.wX s.readY) 2 []⟩⟩
  | false =>
    exact ⟨⟨_, rfl, countX_effect (dec_eq_counted s.wX s.readX) 2 []⟩,
      ⟨_, rfl, countY_effect (dec_eq_counted s.wX s.readY) 2 []⟩⟩

end Sys2Proof.Proofs
end

section
/-! PROOFS. The family 10_state.md: P through `setP`, and the pulls. -/

namespace Sys2Proof.Proofs

open Sys2Proof.Machine Sys2Proof.Safety

/-! ### `setP` -/

/-- What `setP` writes, read in a state with the same E, X, Y and parameters (R43). -/
theorem statusSet_of_setP {s u t : State} {v : Byte} (he : u.e = s.e) (hx : u.x = s.x) (hy : u.y = s.y)
    (hpar : u.params = s.params) (hp : t.p = (u.setP v).p) (htx : t.x = (u.setP v).x) (hty : t.y = (u.setP v).y) :
    StatusSet s t v := by
  rw [State.setP_p, he] at hp
  refine ⟨hp, ?_⟩
  have hclears : u.setPClears v = true ↔ s.params.indexNarrow = .zero ∧ t.flag .x = true := by
    rw [State.setPClears, he, hpar, ← hp, Bool.and_eq_true, beq_iff_eq, and_comm]; rfl
  rw [htx, hty, State.setP_x, State.setP_y, hx, hy]
  by_cases h : u.setPClears v = true
  · rw [if_pos (hclears.1 h)]
    simp [h]
  · rw [if_neg (mt hclears.2 h)]
    simp [h]

/-- `setP` writes P, X and Y only. -/
theorem reg_setP (s : State) (v : Byte) (r : Reg) (hr : r ∉ [Reg.x, .y]) : reg (s.setP v) r = reg s r := by
  cases r
  case x => exact absurd (.head _) hr
  case y => exact absurd (.tail _ (.head _)) hr
  all_goals simp [reg]

theorem reg_charge (s : State) (n : Nat) (r : Reg) : reg (s.charge n) r = reg s r := by
  cases r <;> rfl

/-- REP and SEP: `setP` with the cycles charged. -/
theorem setP_charge_effect (s : State) (v : Byte) (n : Nat) :
    let t := (s.setP v).charge n
    StatusSet s t v ∧ (∀ r, r ∉ [Reg.x, Reg.y] → reg t r = reg s r) ∧ t.diag = s.diag ∧ t.params = s.params ∧
      MemKeptBut [] s t ∧ t.trace = s.trace :=
  ⟨statusSet_of_setP rfl rfl rfl rfl rfl rfl rfl, fun r hr => (reg_charge _ n r).trans (reg_setP s v r hr),
    State.setP_diag s v, State.setP_params s v, memKept_of_eq (State.setP_mem s v), State.setP_trace s v⟩

/-- Settles O50. -/
theorem repSepWriteStatus : Obligations.RepSepWriteStatus :=
  fun s _ => ⟨⟨_, rfl, setP_charge_effect s _ _⟩, ⟨_, rfl, setP_charge_effect s _ _⟩⟩

/-! ### Pulls -/

theorem keeps_pullW (s : State) (w : Width) : Keeps [.sp] [] s (s.pullW w).2 :=
  (pullW_eq s w).2 ▸ keeps_afterPulls s _

theorem pulls_pullW (s : State) (w : Width) : Pulls (w.bits / 8 - 1) s (s.pullW w).2 :=
  (pullW_eq s w).2 ▸ pulls_afterPulls s _

/-- The word pulled, in the words of the statements (R302). -/
theorem pullW_fst (s : State) (w : Width) : (s.pullW w).1 = BitVec.ofNat 16 (pulled s (w.bits / 8 - 1)) := by
  rw [← (pullW_eq s w).1, BitVec.ofNat_toNat, BitVec.setWidth_eq]

/-- A frame after which one register other than S and P is written, with N and Z. -/
theorem keeps_pulled {q : Reg} {s u t : State} (hu : Keeps [.sp] [] s u) (hr : ∀ r, r ≠ q → reg t r = reg u r)
    {v : Word} {w : Width} (hp : t.p = setNZ v w u.p) (hd : t.diag = u.diag) (hpar : t.params = u.params) :
    Keeps [q, .sp] [.n, .z] s t :=
  keeps_write hu hr (fun f hf => (congrArg (flagOf · f) hp).trans (flagOf_setNZ_other v w u.p hf)) hd hpar

/-- PLA (R307). -/
theorem plaImp_effect (s : State) : ∃ t, exec .plaImp s = .next t ∧ Pulls (s.wA.bits / 8 - 1) s t ∧
    WritesA s t (s.pullW s.wA).1 ∧ NZ t (s.pullW s.wA).1 s.wA ∧ Keeps [.c, .sp] [.n, .z] s t :=
  ⟨_, rfl, pulls_pullW s s.wA, writeA_putNZ_effect (keeps_pullW s s.wA) (by decide) _ _⟩

/-- PLX (R308). -/
theorem plxImp_effect (s : State) : ∃ t, exec .plxImp s = .next t ∧ Pulls (s.wX.bits / 8 - 1) s t ∧
    WritesIndex s s.x t.x (s.pullW s.wX).1 ∧ NZ t (s.pullW s.wX).1 s.wX ∧ Keeps [.x, .sp] [.n, .z] s t :=
  ⟨_, rfl, pulls_pullW s s.wX, writeX_putNZ_effect (keeps_pullW s s.wX) (by decide) rfl _⟩

/-- PLY (R309). -/
theorem plyImp_effect (s : State) : ∃ t, exec .plyImp s = .next t ∧ Pulls (s.wX.bits / 8 - 1) s t ∧
    WritesIndex s s.y t.y (s.pullW s.wX).1 ∧ NZ t (s.pullW s.wX).1 s.wX ∧ Keeps [.y, .sp] [.n, .z] s t :=
  ⟨_, rfl, pulls_pullW s s.wX, writeY_putNZ_effect (keeps_pullW s s.wX) (by decide) rfl _⟩

/-- PLB (R313). -/
theorem plbImp_effect (s : State) : ∃ t, exec .plbImp s = .next t ∧ Pulls 0 s t ∧ t.dbr.toNat = pulled s 0 ∧
    NZ t (s.pullW .w8).1 .w8 ∧ Keeps [.dbr, .sp] [.n, .z] s t := by
  refine ⟨_, rfl, pulls_pullW s .w8, (zext_toNat _).symm.trans (pullW_eq s .w8).1, nz_of_setNZ rfl rfl,
    keeps_pulled (keeps_pullW s .w8) (fun r hr => ?_) rfl rfl rfl⟩
  cases r
  case dbr => exact absurd rfl hr
  all_goals rfl

/-- PLD (R316). -/
theorem pldImp_effect (s : State) : ∃ t, exec .pldImp s = .next t ∧ Pulls 1 s t ∧ t.d.toNat = pulled s 1 ∧
    NZ t (s.pullW .w16).1 .w16 ∧ Keeps [.d, .sp] [.n, .z] s t := by
  refine ⟨_, rfl, pulls_pullW s .w16, (pullW_eq s .w16).1, nz_of_setNZ rfl rfl,
    keeps_pulled (keeps_pullW s .w16) (fun r hr => ?_) rfl rfl rfl⟩
  cases r
  case d => exact absurd rfl hr
  all_goals rfl

/-- One byte pulled, in the words of the statements. -/
theorem pull8_fst_pulled (s : State) : s.pull8.1 = BitVec.ofNat 8 (pulled s 0) := by
  have h := (zext_toNat s.pull8.1).symm.trans (pullW_eq s .w8).1
  rw [show pulled s 0 = s.pull8.1.toNat from h.symm, BitVec.ofNat_toNat, BitVec.setWidth_eq]

/-- PLP (R311): the pull moves S, and `setP` writes P, X and Y. -/
theorem plpImp_effect (s : State) : ∃ t, exec .plpImp s = .next t ∧ Pulls 0 s t ∧ StatusSet s t s.pull8.1 ∧
    (∀ r, r ∉ [Reg.x, .y, .sp] → reg t r = reg s r) ∧ t.diag = s.diag ∧ t.params = s.params := by
  obtain ⟨-, htrace, hsp⟩ := pulls_pullW s .w8
  refine ⟨_, rfl, ⟨memKept_of_eq (State.setP_mem s.pull8.2 s.pull8.1),
    (State.setP_trace s.pull8.2 s.pull8.1).trans htrace, (State.setP_sp s.pull8.2 s.pull8.1).trans hsp⟩,
    statusSet_of_setP (u := s.pull8.2) rfl rfl rfl rfl rfl rfl rfl, fun r hr => ?_, State.setP_diag _ _,
    State.setP_params _ _⟩
  simp only [List.mem_cons, List.not_mem_nil, or_false, not_or] at hr
  obtain ⟨hx, hy, hsp⟩ := hr
  rw [reg_charge, reg_setP _ _ r (by simp [hx, hy])]
  exact (keeps_pullW s .w8).1 r (by simp [hsp])

/-- Settles O54: one `_effect` lemma for each pull. -/
theorem pullInstructions : Obligations.PullInstructions := by
  intro s last got
  have hgot : ∀ w, got (last w) = (s.pullW w).1 := fun w => (pullW_fst s w).symm
  rw [hgot s.wA, hgot s.wX, show got 0 = (s.pullW .w8).1 from hgot .w8, show got 1 = (s.pullW .w16).1 from hgot .w16,
    ← pull8_fst_pulled]
  exact ⟨plaImp_effect s, plxImp_effect s, plyImp_effect s, plbImp_effect s, pldImp_effect s, plpImp_effect s⟩

end Sys2Proof.Proofs
end

section
/-! PROOFS. The family 10_state.md: the return from an interrupt. -/

namespace Sys2Proof.Proofs

open Sys2Proof.Machine Sys2Proof.Safety

/-! ### The return from an interrupt -/

/-- A pull neither reads nor writes what `setP` does: the two commute. -/
theorem pull8_setP (s : State) (v : Byte) : (s.setP v).pull8 = (s.pull8.1, s.pull8.2.setP v) := by
  rw [State.setP_eq, State.setP_eq]; rfl

theorem pull16_setP (s : State) (v : Byte) : (s.setP v).pull16 = (s.pull16.1, s.pull16.2.setP v) := by
  simp only [State.pull16, pull8_setP]

/-- The state after three and after four bytes are pulled, one by one. -/
theorem pull8_pull16 (s : State) : s.pull8.2.pull16.2 = afterPulls s 2 := by
  rw [(pull16_eq _).2, afterPulls_succ]

theorem pull8_pull16_pull8 (s : State) : s.pull8.2.pull16.2.pull8.2 = afterPulls s 3 := by
  rw [← afterPulls_succ, ← afterPulls_succ, ← afterPulls_succ, ← (pull8_eq _).2]; rfl

/-- The return in emulation mode: the pulls, then `setP`, then PC (R420). -/
theorem return_emulation {s : State} (he : s.e = true) :
    s.returnFromInterrupt = { (afterPulls s 2).setP s.pull8.1 with pc := s.pull8.2.pull16.1 } := by
  rw [returnFromInterrupt_emulation s he, pull16_setP, pull8_pull16]

/-- The return in native mode: PBR is pulled after PC (R420). -/
theorem return_native {s : State} (he : s.e = false) :
    s.returnFromInterrupt = { (afterPulls s 3).setP s.pull8.1 with
      pc := s.pull8.2.pull16.1, pbr := s.pull8.2.pull16.2.pull8.1 } := by
  have hpc : ∀ (u : State) (v : Byte) (w : Word),
      ({ u.setP v with pc := w } : State).pull8 = (u.pull8.1, { u.pull8.2.setP v with pc := w }) := by
    intro u v w
    rw [State.setP_eq, State.setP_eq]; rfl
  rw [returnFromInterrupt_native s he, pull16_setP, hpc, pull8_pull16_pull8]

/-- What the return from an interrupt does, byte by byte of the frame it pulls (R43, R420); the cycles charged after
it change none of this. -/
theorem return_effect (s : State) (cycles : Nat) :
    let t := s.returnFromInterrupt.charge cycles
    let n := if s.e then 2 else 3
    let frame := answers s (pullAddrs s (n + 1))
    StatusSet s t (frame.getD 0 0) ∧ t.pc = word (frame.getD 2 0) (frame.getD 1 0) ∧
    t.pbr = (if s.e then s.pbr else frame.getD 3 0) ∧
    Pulls n s t ∧ t.diag = s.diag ∧ t.params = s.params ∧
    t.c = s.c ∧ t.d = s.d ∧ t.dbr = s.dbr ∧ t.e = s.e ∧ t.run = s.run := by
  intro t n frame
  cases he : s.e
  case false =>
    have ht : t = ({ (afterPulls s 3).setP s.pull8.1 with
        pc := s.pull8.2.pull16.1, pbr := s.pull8.2.pull16.2.pull8.1 } : State).charge cycles :=
      congrArg (·.charge cycles) (return_native he)
    have hn : n = 3 := by simp only [n, he, Bool.false_eq_true, if_false]
    have hframe : frame = [s.pull8.1, s.pull8.2.pull8.1, s.pull8.2.pull8.2.pull8.1, s.pull8.2.pull16.2.pull8.1] := by
      simp only [frame, hn, answers_pulls_succ]; rfl
    rw [ht, hn, hframe]
    refine ⟨statusSet_of_setP (u := afterPulls s 3) rfl rfl rfl rfl rfl rfl rfl, rfl, rfl,
      ⟨memKept_of_eq ?_, ?_, ?_⟩, ?_⟩
    all_goals simp [afterPulls, afterReads, he]
  case true =>
    have ht : t = ({ (afterPulls s 2).setP s.pull8.1 with pc := s.pull8.2.pull16.1 } : State).charge cycles :=
      congrArg (·.charge cycles) (return_emulation he)
    have hn : n = 2 := by simp only [n, he, if_true]
    have hframe : frame = [s.pull8.1, s.pull8.2.pull8.1, s.pull8.2.pull8.2.pull8.1] := by
      simp only [frame, hn, answers_pulls_succ]; rfl
    rw [ht, hn, hframe]
    refine ⟨statusSet_of_setP (u := afterPulls s 2) rfl rfl rfl rfl rfl rfl rfl, rfl, ?_,
      ⟨memKept_of_eq ?_, ?_, ?_⟩, ?_⟩
    all_goals simp [afterPulls, afterReads, he]

/-- Settles O19. -/
theorem rtiRestoresFrame : Obligations.RtiRestoresFrame :=
  fun s => ⟨_, rfl, return_effect s _⟩

end Sys2Proof.Proofs
end

section
/-! PROOFS. The family 10_state.md: the return right after an interrupt entry. -/

namespace Sys2Proof.Proofs

open Sys2Proof.Machine Sys2Proof.Safety

/-! ### Pulls after pushes -/

/-- Pulls after `n` pushes read the pushed addresses, last first (R300, R301). -/
theorem pullAddr_after_pushes {s u : State} {n k : Nat} (hpage : s.e = true → hi s.sp = 0x01) (he : u.e = s.e)
    (hsp : u.sp = spAfterPushes s n) (hn : n ≤ 2 ^ 8) (hk : k < n) : pullAddr u k = pushAddr s (n - 1 - k) := by
  have hs := s.sp.isLt
  obtain ⟨m, rfl⟩ : ∃ m, n = m + 1 := ⟨n - 1, by omega⟩
  have hone : s.e = true → s.sp.toNat / 2 ^ 8 = 1 := fun h => by rw [← hi_toNat, hpage h]; rfl
  rw [pullAddr, he, hsp, spAfterPushes, pushAddr, Nat.add_sub_cancel]
  cases hj : m - k <;> rw [pushAddr] <;> cases hem : s.e <;> simp only [Bool.false_eq_true, if_false, if_true] <;>
    apply bank0_congr <;> simp only [bank0_toNat, BitVec.toNat_ofNat]
  case zero.false | succ.false => omega
  case zero.true | succ.true => have := hone hem; omega

theorem pullAddrs_after_pushes {s u : State} {n : Nat} (hpage : s.e = true → hi s.sp = 0x01) (he : u.e = s.e)
    (hsp : u.sp = spAfterPushes s n) (hn : n ≤ 2 ^ 8) : pullAddrs u n = (pushAddrs s n).reverse := by
  apply List.ext_getElem
  · simp [pullAddrs, pushAddrs]
  · intro k hk _
    have hk : k < n := by simpa [pullAddrs] using hk
    simp only [pullAddrs, pushAddrs, List.getElem_map, List.getElem_range, List.getElem_reverse, List.length_map,
      List.length_range]
    exact pullAddr_after_pushes hpage he hsp hn hk

/-- As many pulls as pushes bring S back (R303). -/
theorem spAfterPulls_after_pushes {s u : State} {n : Nat} (hpage : s.e = true → hi s.sp = 0x01) (he : u.e = s.e)
    (hsp : u.sp = spAfterPushes s (n + 1)) (hn : n < 2 ^ 8) : spAfterPulls u n = s.sp := by
  rw [spAfterPulls, pullAddr_after_pushes hpage he hsp hn (Nat.lt_succ_self n), Nat.add_sub_cancel, Nat.sub_self]
  exact spAfterPushes_zero s

/-- Bytes written at as many distinct addresses read back in order. -/
theorem map_read_replay {m : Memory} {addrs : List Addr} {bytes : List Byte} (h : addrs.Nodup)
    (hlen : addrs.length = bytes.length) :
    (addrs.map fun a => Memory.read (replay m (writeEvents addrs bytes)) a.toNat) = bytes := by
  apply List.ext_getElem
  · simpa using hlen
  · intro k hk hk'
    have hka : k < addrs.length := by simpa using hk
    have hmem : (addrs[k], bytes[k]) ∈ addrs.zip bytes := by
      rw [← List.getElem_zip (h := by simp; omega)]; exact List.getElem_mem _
    rw [List.getElem_map]
    exact read_replay_writes h _ hmem

/-- With a RAM collaborator, as many pulls as pushes answer the pushed bytes, last first (R303). -/
theorem answers_after_pushes {s u : State} {bytes : List Byte} (hpage : s.e = true → hi s.sp = 0x01)
    (hram : u.params.oracleRanges = []) (he : u.e = s.e) (hsp : u.sp = spAfterPushes s bytes.length)
    (hmem : u.mem = replay s.mem (writeEvents (pushAddrs s bytes.length) bytes)) (hn : bytes.length ≤ 2 ^ 8) :
    answers u (pullAddrs u bytes.length) = bytes.reverse := by
  rw [answers_ram hram, pullAddrs_after_pushes hpage he hsp hn, List.map_reverse, hmem,
    map_read_replay (pushAddrs_nodup s _ hn) (by simp [pushAddrs])]

/-! ### The frame of an interrupt -/

/-- What interrupt entry leaves in the state that the return then reads (R404). -/
theorem enterInterrupt_fields (s : State) (k : EntryKind) :
    let u := s.enterInterrupt k
    u.sp = spAfterPushes s (entryBytes s k).length ∧
      u.mem = replay s.mem (writeEvents (pushAddrs s (entryBytes s k).length) (entryBytes s k)) ∧
      u.x = s.x ∧ u.y = s.y ∧ u.pbr = 0x00 ∧ u.c = s.c ∧ u.d = s.d ∧ u.dbr = s.dbr ∧ u.e = s.e ∧ u.run = s.run ∧
      u.params = s.params := by
  intro u
  have hu : u = _ := enterInterrupt_eq s k
  simp only [hu, afterReads, State.putFlag, afterPushes, afterWrites, and_self]

/-- The byte that entry pushes for P, in emulation mode with both width bits set again (R43, R404). -/
theorem withFlag_x_or_widths {p : Byte} (hm : flagOf p .m = true) (hx : flagOf p .x = true) :
    p ||| 0x30 = p ∧ withFlag p .x false ||| 0x30 = p := by
  constructor <;> apply status_ext <;> intro f <;> cases f <;>
    simp_all [flagOf, withFlag, Flag.bit, Flag.mask]

/-- The pushed bytes in the order in which the return pulls them (R404, R420). -/
theorem entryBytes_reverse (s : State) (k : EntryKind) :
    (entryBytes s k).reverse = s.pushedP k :: lo s.pc :: hi s.pc :: if s.e then [] else [s.pbr] := by
  rw [pushedP_eq]
  unfold entryBytes
  cases s.e <;> simp

/-- `setP` gives back the P that entry pushed (R43, R404). -/
theorem setP_pushedP {s : State} (k : EntryKind) (hemu : EmulationPinned s) :
    (if s.e then s.pushedP k ||| 0x30 else s.pushedP k) = s.p := by
  rw [pushedP_eq]
  cases he : s.e
  · simp
  · obtain ⟨hm, hx, -⟩ := hemu he
    obtain ⟨hkept, hbreak⟩ := withFlag_x_or_widths hm hx
    rw [if_pos rfl]
    split
    · exact hbreak
    · exact hkept

/-- A status set to what it was leaves the index registers, where the policy Zero holds (R42, R43). -/
theorem statusSet_same {s u t : State} {v : Byte} (h : StatusSet u t v) (hx : u.x = s.x) (hy : u.y = s.y)
    (hpar : u.params = s.params) (hp : t.p = s.p) (hzero : ZeroPolicyClears s) : t.x = s.x ∧ t.y = s.y := by
  obtain ⟨-, hindex⟩ := h
  have hflag : t.flag .x = s.flag .x := congrArg (flagOf · .x) hp
  rw [hx, hy, hpar, hflag] at hindex
  split at hindex
  · next hclears =>
    obtain ⟨hlx, hhx, hly, hhy⟩ := hindex
    obtain ⟨hix, hiy⟩ := hzero hclears.1 hclears.2
    exact ⟨word_ext hlx (hhx.trans hix.symm), word_ext hly (hhy.trans hiy.symm)⟩
  · exact hindex

/-- Settles O20: the return pulls the entry's bytes in reverse. -/
theorem entryThenReturnRestores : Obligations.EntryThenReturnRestores := by
  intro k s hinv hram t
  obtain ⟨hemu, hzero, -⟩ := hinv
  obtain ⟨hsp, hmem, hx, hy, hpbr, hc, hd, hdbr, he, hrun, hpar⟩ := enterInterrupt_fields s k
  obtain ⟨hset, htpc, htpbr, ⟨-, -, htsp⟩, -, -, htc, htd, htdbr, hte, htrun⟩ :=
    return_effect (s.enterInterrupt k) 0
  have hpage : s.e = true → hi s.sp = 0x01 := fun h => by obtain ⟨-, -, hpage, -⟩ := hemu h; exact hpage
  have hlen : (if (s.enterInterrupt k).e then 2 else 3) + 1 = (entryBytes s k).length := by
    rw [he, ← List.length_reverse, entryBytes_reverse]; cases s.e <;> rfl
  have hfew : (entryBytes s k).length ≤ 2 ^ 8 := by rw [← hlen]; split <;> decide
  have hframe := answers_after_pushes hpage (hpar ▸ hram) he hsp hmem hfew
  rw [hlen, hframe, entryBytes_reverse] at hset htpc htpbr
  rw [← hlen] at hsp hfew
  have hp : t.p = s.p := by
    have hsetp := hset.1
    rw [he] at hsetp
    exact hsetp.trans (setP_pushedP k hemu)
  obtain ⟨htx, hty⟩ := statusSet_same hset hx hy hpar hp hzero
  refine ⟨hp, htpc.trans (word_hi_lo s.pc), htsp.trans (spAfterPulls_after_pushes hpage he hsp hfew), htx, hty, ?_,
    htc.trans hc, htd.trans hd, htdbr.trans hdbr, hte.trans he, htrun.trans hrun⟩
  rw [he, hpbr] at htpbr
  refine htpbr.trans ?_
  cases s.e <;> rfl

end Sys2Proof.Proofs
end

section
/-! PROOFS. The family 10_state.md: the accessors, the block moves, and the step that runs a decoded instruction. -/

namespace Sys2Proof.Proofs

open Sys2Proof.Machine Sys2Proof.Safety

/-! ### The accessors (R60, R61) -/

/-- What reads back from the accumulator after a write of `v` is `v` at its width (R41). -/
theorem readA_writeA (s : State) (v : Word) : (s.writeA v).readA = s.wA.trunc v := by
  show (if s.flag .m then zext (lo (s.writeA v).c) else (s.writeA v).c) = _
  unfold State.wA
  rw [State.writeA_c]
  cases s.flag .m <;> simp [Width.trunc]

/-- A value cut to the width that a flag selects. -/
theorem trunc_flag_toNat (b : Bool) (v : Word) :
    ((if b then Width.w8 else .w16).trunc v).toNat = if b then v.toNat % 2 ^ 8 else v.toNat := by
  cases b <;> simp [Width.trunc, zext_toNat, lo_toNat]

/-- In native mode `setP` writes P as it is given (R43). -/
theorem flag_setP_native {s : State} (he : s.e = false) (p : Byte) (f : Flag) : (s.setP p).flag f = flagOf p f := by
  rw [State.flag, State.setP_p, he]; rfl

/-- In native mode a status with P.M clear opens all 16 bits of C. -/
theorem readA_setP_wide {s : State} {p : Byte} (he : s.e = false) (hm : flagOf p .m = false) :
    (s.setP p).readA = s.c := by
  rw [State.readA, flag_setP_native he, hm, State.setP_c]; rfl

/-- In native mode a status with P.X clear clears no index high byte. -/
theorem setPClears_wide {s : State} {p : Byte} (he : s.e = false) (hx : flagOf p .x = false) :
    s.setPClears p = false := by
  simp [State.setPClears, he, hx]

theorem readX_setP_wide {s : State} {p : Byte} (he : s.e = false) (hx : flagOf p .x = false) :
    (s.setP p).readX = s.x := by
  rw [State.readX, flag_setP_native he, hx, State.setP_x, setPClears_wide he hx]; rfl

theorem readY_setP_wide {s : State} {p : Byte} (he : s.e = false) (hx : flagOf p .x = false) :
    (s.setP p).readY = s.y := by
  rw [State.readY, flag_setP_native he, hx, State.setP_y, setPClears_wide he hx]; rfl

/-- An 8-bit index write, by its two bytes (R42; D9). -/
theorem indexWrite_narrow {s : State} (hx : s.flag .x = true) (old v : Word) :
    s.indexWrite old v = word (if s.params.indexNarrow = .zero then 0x00 else hi old) (lo v) := by
  rw [State.indexWrite, if_pos hx]
  cases s.params.indexNarrow
  · simp
  · exact word_ext (by simp) (by simp)

/-- Settles O23. -/
theorem accessorsAreWidthAware : Obligations.AccessorsAreWidthAware := by
  intro s v
  refine ⟨?_, ?_, ?_, fun p he => ⟨fun hm hp => ?_, fun hx hp => ⟨?_, ?_⟩⟩⟩
  · exact (congrArg BitVec.toNat (readA_writeA s v)).trans (trunc_flag_toNat _ v)
  · exact (congrArg BitVec.toNat (readX_writeX s v)).trans (trunc_flag_toNat _ v)
  · exact (congrArg BitVec.toNat (readY_writeY s v)).trans (trunc_flag_toNat _ v)
  · exact (readA_setP_wide (s := s.writeA v) he hp).trans (if_pos hm)
  · exact (readX_setP_wide (s := s.writeX v) he hp).trans (indexWrite_narrow hx s.x v)
  · exact (readY_setP_wide (s := s.writeY v) he hp).trans (indexWrite_narrow hx s.y v)

/-! ### The block moves (R362 to R364) -/

/-- One step of a block move, with `delta` the counter's step. -/
theorem blockStep_effect {delta : Word} {up : Bool}
    (hdelta : ∀ v : Word, v + delta = BitVec.ofNat 16 (counted 16 v.toNat up)) (s : State) (dst src : Byte)
    (n : Nat) :
    let a := addrOf src (getX s)
    let b := addrOf dst (getY s)
    let t := (blockStep delta dst src s).charge n
    Stores [b] [s.answer a] [.read a (s.answer a)] s t ∧ t.dbr = dst ∧
      WritesIndex s s.x t.x (BitVec.ofNat 16 (counted 16 (getX s).toNat up)) ∧
      WritesIndex s s.y t.y (BitVec.ofNat 16 (counted 16 (getY s).toNat up)) ∧
      t.c.toNat = (s.c.toNat + 2 ^ 16 - 1) % 2 ^ 16 ∧
      t.pc.toNat = (if s.c.toNat = 0 then s.pc.toNat else (s.pc.toNat + 2 ^ 16 - 3) % 2 ^ 16) ∧
      Keeps [.c, .x, .y, .dbr, .pc] [] s t := by
  intro a b t
  have ht : t = _ := congrArg (·.charge n) (blockStep_eq delta dst src s)
  have hc := s.c.isLt
  have hpc := s.pc.isLt
  rw [getX, getY, ← hdelta, ← hdelta, ht]
  refine ⟨stores_of_replay (List.nodup_singleton b) rfl ?_, rfl, writesIndex_indexWrite _ _ _,
    writesIndex_indexWrite _ _ _, ?_, ?_, fun r hr => ?_, fun _ _ => rfl, rfl, rfl⟩
  · rw [List.append_assoc]; rfl
  · show (s.c - 1).toNat = _
    rw [BitVec.toNat_sub]
    simp only [BitVec.reduceToNat]; omega
  · show (if s.c - 1 = 0xFFFF then s.pc else s.pc - 3).toNat = _
    have hwrap : s.c - 1 = 0xFFFF ↔ s.c.toNat = 0 := by bv_omega
    rw [apply_ite BitVec.toNat]
    simp only [hwrap]
    split
    · rfl
    · rw [BitVec.toNat_sub]; simp only [BitVec.reduceToNat]; omega
  · simp only [List.mem_cons, List.not_mem_nil, or_false, not_or] at hr
    obtain ⟨hrc, hrx, hry, hrdbr, hrpc⟩ := hr
    cases r
    case c | x | y | dbr | pc => contradiction
    all_goals rfl

/-- Settles O59. -/
theorem blockMovesOneByte : Obligations.BlockMovesOneByte := by
  intro s dst src up a b
  have hdown : ∀ v : Word, v + -1 = BitVec.ofNat 16 (counted 16 v.toNat false) := fun v =>
    (sub_eq_add_neg v 1).symm.trans (dec_eq_counted .w16 v)
  cases up with
  | true => exact ⟨_, rfl, blockStep_effect (inc_eq_counted .w16) s dst src _⟩
  | false => exact ⟨_, rfl, blockStep_effect hdown s dst src _⟩

/-! ### The step that runs a decoded instruction (R102, R350) -/

theorem immOf_bytes_length (w : Width) (b1 b2 : Byte) : (immOf w b1 b2).bytes.length = w.bits / 8 := by
  cases w <;> simp [immOf, Imm.bytes, Width.bits]

/-- Each of the 256 cells of the opcode map has the operand length that the table of lengths gives it (R101, R109). -/
theorem operandBytes_length_decodeRow {row col : Nat} (hr : row < 16) (hc : col < 16) (o : OperandBytes) :
    (Laws.Encoding.decodeRow row col o).operandBytes.length =
      (((operandLensLow ++ operandLensHigh).getD row []).getD col .n0).count o.w := by
  interval_cases row <;> interval_cases col <;> try rfl
  all_goals exact immOf_bytes_length _ _ _

/-- A decoded instruction is as long as its opcode says (R102). -/
theorem length_decodeOp (op : Byte) (o : OperandBytes) : (decodeOp op o).length = operandCount op o.w + 1 := by
  have hop := op.isLt
  have h := operandBytes_length_decodeRow (row := op.toNat / 16) (col := op.toNat % 16) (by omega) (by omega) o
  exact congrArg (· + 1) h

/-- What decodes is the decoder's map at the opcode, on as many of the bytes after it as it has operand bytes. -/
theorem decode_cons_ok {w : Widths} {op : Byte} {bs rest : List Byte} {i : Instr}
    (h : decode w (op :: bs) = .ok (i, rest)) : i = decodeOp op (.ofList w (bs.take (operandCount op w))) := by
  unfold decode at h
  dsimp only at h
  split at h
  · cases h
  · cases h; rfl

/-- The first answers do not depend on the calls that follow. -/
theorem answers_take (s : State) (addrs : List Addr) (n : Nat) :
    answers s (addrs.take n) = (answers s addrs).take n := by
  induction addrs generalizing s n with
  | nil => simp
  | cons a rest ih =>
    cases n with
    | zero => rfl
    | succ n => rw [List.take_succ_cons, answers_cons, answers_cons, List.take_succ_cons, ih]

/-- Moving PC past the opcode changes no answer. -/
theorem answers_after_fetch8 (s : State) (addrs : List Addr) :
    answers (s.memRead (addrOf s.pbr s.pc)).2 addrs = answers s.fetch8.2 addrs :=
  answers_congr (s := s.fetch8.2) (t := (s.memRead (addrOf s.pbr s.pc)).2) rfl rfl rfl addrs

theorem fetchAddrs_take (s : State) {m n : Nat} (h : m ≤ n) : (fetchAddrs s n).take m = fetchAddrs s m := by
  rw [fetchAddrs, fetchAddrs, ← List.map_take, List.take_range, Nat.min_eq_left h]

/-- The state after `n + 1` instruction bytes are fetched, the opcode first (R130). -/
theorem fetch_opcode_operands (s : State) (n : Nat) :
    ({ afterReads s.fetch8.2 (fetchAddrs s.fetch8.2 n) with pc := s.fetch8.2.pc + BitVec.ofNat 16 n } : State) =
      { s with pc := s.pc + BitVec.ofNat 16 (n + 1), trace := s.trace ++ readEvents s (fetchAddrs s (n + 1)) } := by
  have h := congrArg Prod.snd (fetchBytes_eq (n + 1) s)
  rw [State.fetchBytes, fetchBytes_eq] at h
  exact h

/-- No instruction has more than three operand bytes (R100). -/
theorem operandCount_le (op : Byte) (w : Widths) : operandCount op w ≤ 3 := by
  have h : ∀ l : OperandLen, l.count w ≤ 3 := by
    intro l
    obtain ⟨m, x⟩ := w
    cases l <;> cases m <;> cases x <;> decide
  exact h _

/-- Settles O5: the operand fetch takes the bytes that `decode` does, and leaves PC and the calls as stated. -/
theorem stepRunsDecodedInstruction : Obligations.StepRunsDecodedInstruction := by
  intro s i rest addrs hrun hknown hdecode
  have hknown' : ¬ s.unknownOp s.fetch8.1 = true := Bool.eq_false_iff.1 hknown
  have hcount := operandCount_le s.fetch8.1 s.widths
  have hi : i = decodeOp s.fetch8.1 (.ofList s.widths
      (answers s.fetch8.2 (fetchAddrs s.fetch8.2 (operandCount s.fetch8.1 s.widths)))) := by
    rw [show addrs = fetchAddrs s 4 from rfl, fetchAddrs_succ, answers_cons] at hdecode
    rw [decode_cons_ok hdecode, ← answers_take, ← State.fetch8_fst, fetchAddrs_take _ hcount,
      answers_after_fetch8]
  have hlen : i.length = operandCount s.fetch8.1 s.widths + 1 := hi ▸ length_decodeOp _ _
  rw [step_of_knownOp hrun hknown', fetchOperands_eq, hlen, show addrs = fetchAddrs s 4 from rfl,
    fetchAddrs_take s (Nat.succ_le_succ hcount), ← fetch_opcode_operands, hi]
  rfl

end Sys2Proof.Proofs
end

section
/-! PROOFS. The family 20_memory.md: RAM, and the canonical form of memory (R71, R74). -/

namespace Sys2Proof.Proofs

open Sys2Proof.Machine Sys2Proof.Safety

/-! ### RAM -/

/-- Where the collaborator is RAM, it answers the byte in memory (R74). -/
theorem answer_of_ram {s : State} {a : Addr} (h : s.oracleAt a = false) : s.answer a = Memory.read s.mem a.toNat := by
  simp [State.answer, h]

/-- Settles O24: a write leaves the kinds of the addresses as they are, and sets one byte of memory. -/
theorem ramReadsLastWrite : Obligations.RamReadsLastWrite := by
  intro s a b v hram
  have hram' : (s.memWrite a v).oracleAt b = false := hram
  rw [State.memRead_fst, State.memRead_fst, answer_of_ram hram', answer_of_ram hram, State.memWrite_mem,
    Memory.read_write]
  simp only [BitVec.toNat_inj]

/-! ### The canonical form -/

theorem read_cons (b a : Nat) (v : Byte) (rest : Memory) :
    Memory.read ((b, v) :: rest) a = if b = a then v else Memory.read rest a := rfl

/-- Memory in canonical form from `low` up lists nothing below `low`. -/
theorem read_below {low a : Nat} {m : Memory} (h : Memory.wfFrom low m = true) (ha : a < low) :
    Memory.read m a = Config.unlistedByte := by
  induction m generalizing low with
  | nil => rfl
  | cons c rest ih =>
    obtain ⟨b, v⟩ := c
    obtain ⟨hb, -, -, hrest⟩ := Memory.wfFrom_cons.1 h
    rw [read_cons, if_neg (by omega), ih hrest (by omega)]

/-- A memory whose lowest listed address is `b` does not read like one that lists nothing up to `b`. -/
theorem le_of_reads_alike {low low' b : Nat} {v : Byte} {rest m' : Memory}
    (h : Memory.wfFrom low ((b, v) :: rest) = true) (h' : Memory.wfFrom low' m' = true)
    (halike : ∀ a, Memory.read ((b, v) :: rest) a = Memory.read m' a) : low' ≤ b := by
  obtain ⟨-, -, hv, -⟩ := Memory.wfFrom_cons.1 h
  by_contra hlt
  have hb := halike b
  rw [read_cons, if_pos rfl, read_below h' (Nat.lt_of_not_le hlt)] at hb
  exact hv hb

/-- The canonical form is unique, from any two addresses up: the lowest listed addresses agree, then their bytes,
then the cells above them. -/
theorem eq_of_reads_alike {low low' : Nat} {m m' : Memory} (h : Memory.wfFrom low m = true)
    (h' : Memory.wfFrom low' m' = true) (halike : ∀ a, Memory.read m a = Memory.read m' a) : m = m' := by
  induction m generalizing low low' m' with
  | nil =>
    cases m' with
    | nil => rfl
    | cons c' rest' =>
      have := le_of_reads_alike (low' := c'.1 + 1) h' rfl fun a => (halike a).symm
      omega
  | cons c rest ih =>
    obtain ⟨b, v⟩ := c
    cases m' with
    | nil =>
      have := le_of_reads_alike (low' := b + 1) h rfl halike
      omega
    | cons c' rest' =>
      obtain ⟨b', v'⟩ := c'
      obtain ⟨-, hn, hv, hrest⟩ := Memory.wfFrom_cons.1 h
      obtain ⟨-, hn', hv', hrest'⟩ := Memory.wfFrom_cons.1 h'
      have hle := le_of_reads_alike h
        (Memory.wfFrom_cons.2 ⟨Nat.le_refl b', hn', hv', hrest'⟩) halike
      have hge := le_of_reads_alike h'
        (Memory.wfFrom_cons.2 ⟨Nat.le_refl b, hn, hv, hrest⟩) fun a => (halike a).symm
      obtain rfl : b = b' := Nat.le_antisymm hge hle
      have hbyte : v = v' := by simpa [read_cons] using halike b
      have habove : ∀ a, Memory.read rest a = Memory.read rest' a := by
        intro a
        by_cases hab : b = a
        · rw [read_below hrest (by omega), read_below hrest' (by omega)]
        · simpa [read_cons, hab] using halike a
      rw [hbyte, ih hrest hrest' habove]

/-- Settles O25: the canonical form of a whole memory is that from address 0 up. -/
theorem canonicalMemoryIsUnique : Obligations.CanonicalMemoryIsUnique :=
  fun _ _ => eq_of_reads_alike

end Sys2Proof.Proofs
end

section
/-! PROOFS. The family 20_memory.md: a step reaches memory through its recorded calls only (R70, R75, R80). -/

namespace Sys2Proof.Proofs

open Sys2Proof.Machine Sys2Proof.Safety

/-- From `s` to `t`, calls have been added to the record, and memory has changed by those calls alone. -/
def FollowsCalls (s t : State) : Prop :=
  ∃ calls, t.trace = s.trace ++ calls ∧ t.mem = replay s.mem calls

theorem followsCalls_of_eq {s t : State} (htrace : t.trace = s.trace) (hmem : t.mem = s.mem) : FollowsCalls s t :=
  ⟨[], by rw [htrace, List.append_nil], by rw [hmem, replay_nil]⟩

theorem followsCalls_trans {s t u : State} (h : FollowsCalls s t) (h' : FollowsCalls t u) : FollowsCalls s u := by
  obtain ⟨calls, htrace, hmem⟩ := h
  obtain ⟨calls', htrace', hmem'⟩ := h'
  exact ⟨calls ++ calls', by rw [htrace', htrace, List.append_assoc], by rw [hmem', hmem, replay_append]⟩

/-- The opcode is fetched by one read (R130). -/
theorem followsCalls_fetch8 (s : State) : FollowsCalls s s.fetch8.2 :=
  ⟨[.read (addrOf s.pbr s.pc) (s.answer (addrOf s.pbr s.pc))], rfl, rfl⟩

/-- The operand bytes are fetched by reads alone (R75, R130). -/
theorem followsCalls_fetchOperands (s : State) (op : Byte) : FollowsCalls s (s.fetchOperands op).2 := by
  rw [fetchOperands_eq]
  exact ⟨_, rfl, (replay_readEvents _ _ _).symm⟩

/-- The unknown-opcode path makes no call of its own (R355). -/
theorem followsCalls_unknownOpcode (s : State) (op : Byte) (pc : Word) : FollowsCalls s (unknownOpcode op pc s) := by
  unfold unknownOpcode
  split <;> exact followsCalls_of_eq rfl rfl

/-- Settles O12: on each path of `step`, the calls of the fetch and then those of the path, which for an
instruction are the calls that `Confined` accounts for. -/
theorem memoryFollowsBusWrites : Obligations.MemoryFollowsBusWrites := by
  intro s t hstep
  show FollowsCalls s t
  by_cases hrun : s.run = .running
  · by_cases hop : s.unknownOp s.fetch8.1 = true
    · rw [step_of_unknownOp hrun hop] at hstep
      exact Host.Outcome.next.inj hstep ▸
        followsCalls_trans (followsCalls_fetch8 s) (followsCalls_unknownOpcode _ _ _)
    · rw [step_of_knownOp hrun hop] at hstep
      have hfetched := followsCalls_trans (followsCalls_fetch8 s) (followsCalls_fetchOperands _ s.fetch8.1)
      exact followsCalls_trans hfetched (confined_of_exec hstep).calls
  · rw [step_of_not_running hrun] at hstep
    exact Host.Outcome.next.inj hstep ▸ followsCalls_of_eq rfl rfl

end Sys2Proof.Proofs
end

section
/-! PROOFS. The family 20_memory.md: operands read and stored, in the order and at the addresses of R86. -/

namespace Sys2Proof.Proofs

open Sys2Proof.Machine Sys2Proof.Safety

/-! ### Reads of an operand -/

/-- Resolving an operand changes the record of calls only. -/
theorem ea_st (s : State) (m : DataMode) : (s.ea m).st = { s with trace := (s.ea m).st.trace } := by
  obtain ⟨reads, h⟩ := ea_reads s m
  rw [h]; rfl

/-- A memory operand: the pointer's reads, then those of its own bytes, low byte first (R73, R86, R132). -/
theorem operandRead_mem (s : State) (m : DataMode) (w : Width) :
    let r := s.ea m
    let f := s.operandRead (.mem m) w
    let addrs := byteAddrs r.seq r.addr (w.bits / 8)
    f.val.toNat = littleEndian (answers r.st addrs) ∧ f.crossed = r.crossed ∧
      f.st = { s with trace := r.st.trace ++ readEvents r.st addrs } := by
  intro r f addrs
  obtain ⟨hval, hst⟩ := readW_eq r.st r.seq r.addr w
  refine ⟨hval, rfl, ?_⟩
  calc f.st = afterReads r.st addrs := hst
    _ = { s with trace := r.st.trace ++ readEvents r.st addrs } := by rw [afterReads, show r.st = _ from ea_st s m]

/-- An immediate of the length that the width asks for is its own bytes, low byte first (R103). -/
theorem trunc_immValue {k : Imm} {w : Width} (h : k.fits w = true) :
    (w.trunc (immValue k)).toNat = littleEndian k.bytes := by
  cases k <;> cases w
  case w8.w8 b => simp [Width.trunc, immValue, Imm.bytes, littleEndian, zext_toNat]
  case w16.w16 v =>
    simp only [Width.trunc, immValue, Imm.bytes, littleEndian, lo_toNat, hi_toNat]
    omega
  all_goals cases h

/-- Settles O29: a memory mode and an immediate, by the lemma for each. -/
theorem operandReadsLowByteFirst : Obligations.OperandReadsLowByteFirst :=
  ⟨operandRead_mem, fun _ _ _ hfits => ⟨trunc_immValue hfits, rfl, rfl⟩⟩

/-! ### Stores of an operand -/

/-- The pointer's reads are what resolving adds to the record. -/
theorem trace_ea (s : State) (m : DataMode) :
    (s.ea m).st.trace = s.trace ++ (s.ea m).st.trace.drop s.trace.length := by
  obtain ⟨reads, h⟩ := ea_reads s m
  rw [h, afterReads, List.drop_left]

/-- The bytes of a value at a width are those of the value cut to it. -/
theorem valueBytes_trunc (v : Word) (w : Width) : valueBytes (w.trunc v) w = valueBytes v w := by
  cases w <;> simp [valueBytes, Width.trunc]

/-- What a store does: the pointer's reads, the value's bytes at the operand's addresses, and nothing else (R86,
R132). -/
theorem operandWrite_effect (s : State) (m : DataMode) (w : Width) (v : Word) (n : Nat) :
    let r := s.ea m
    let t := (s.operandWrite m w v).charge n
    Keeps [] [] s t ∧
      Stores (byteAddrs r.seq r.addr (w.bits / 8)) (valueBytes v w) (r.st.trace.drop s.trace.length) s t := by
  intro r t
  have ht : t = (afterWrites r.st (byteAddrs r.seq r.addr (w.bits / 8)) (valueBytes v w)).charge n :=
    congrArg (·.charge n) (operandWrite_eq s m w v)
  have hst : r.st = { s with trace := r.st.trace } := ea_st s m
  constructor
  · rw [ht, hst]
    exact ⟨fun reg _ => by cases reg <;> rfl, fun _ _ => rfl, rfl, rfl⟩
  · refine stores_of_replay (byteAddrs_nodup _ _ _) ?_ ?_
    · rw [ht, hst]; rfl
    · rw [ht, ← trace_ea]; rfl

/-- A store of a register read at its width stores the register's own bytes. -/
theorem operandWrite_trunc_effect (s : State) (m : DataMode) {w : Width} {v v' : Word} (hv : v' = w.trunc v)
    (n : Nat) :
    let r := s.ea m
    let t := (s.operandWrite m w v').charge n
    Keeps [] [] s t ∧
      Stores (byteAddrs r.seq r.addr (w.bits / 8)) (valueBytes v w) (r.st.trace.drop s.trace.length) s t := by
  have h := operandWrite_effect s m w v' n
  rwa [hv, valueBytes_trunc, ← hv] at h

theorem readA_eq_trunc (s : State) : s.readA = s.wA.trunc s.c := by
  unfold State.readA State.wA
  cases s.flag .m <;> rfl

/-! ### The stores, every form (opcode_table.json) -/

theorem exec_staForm {m : DataMode} {i : Instr} (h : staForm m = some i) (s : State) :
    ∃ base mods, exec i s = .next (storeA m base mods s) := by
  cases m <;> cases h <;> exact ⟨_, _, rfl⟩

theorem exec_stxForm {m : DataMode} {i : Instr} (h : stxForm m = some i) (s : State) :
    ∃ base mods, exec i s = .next (storeX m base mods s) := by
  cases m <;> cases h <;> exact ⟨_, _, rfl⟩

theorem exec_styForm {m : DataMode} {i : Instr} (h : styForm m = some i) (s : State) :
    ∃ base mods, exec i s = .next (storeY m base mods s) := by
  cases m <;> cases h <;> exact ⟨_, _, rfl⟩

theorem exec_stzForm {m : DataMode} {i : Instr} (h : stzForm m = some i) (s : State) :
    ∃ base mods, exec i s = .next (storeZero m base mods s) := by
  cases m <;> cases h <;> exact ⟨_, _, rfl⟩

/-- Settles O36: each form stores what `readA` gives, at the width of the accumulator. -/
theorem staStoresAccumulator : Obligations.StaStoresAccumulator := by
  intro s m i hform r
  obtain ⟨base, mods, hexec⟩ := exec_staForm hform s
  exact ⟨_, hexec, operandWrite_trunc_effect s m (readA_eq_trunc s) _⟩

/-- Settles O37: each form stores what `readX` or `readY` gives, or 0. -/
theorem stxStyStzStore : Obligations.StxStyStzStore := by
  intro s m i r stores
  refine ⟨fun hform => ?_, fun hform => ?_, fun hform => ?_⟩
  · obtain ⟨base, mods, hexec⟩ := exec_stxForm hform s
    exact ⟨_, hexec, operandWrite_trunc_effect s m (readX_eq_trunc s) _⟩
  · obtain ⟨base, mods, hexec⟩ := exec_styForm hform s
    exact ⟨_, hexec, operandWrite_trunc_effect s m (readY_eq_trunc s) _⟩
  · obtain ⟨base, mods, hexec⟩ := exec_stzForm hform s
    exact ⟨_, hexec, operandWrite_effect s m s.wA 0x0000 _⟩

end Sys2Proof.Proofs
end

section
/-! PROOFS. The family 20_memory.md: the subroutine calls, whose pushes come before every later read (R75). -/

namespace Sys2Proof.Proofs

open Sys2Proof.Machine Sys2Proof.Safety

/-! ### Pushes -/

/-- Pushes write S only (R300). -/
theorem keeps_afterPushes (s : State) (bytes : List Byte) : Keeps [.sp] [] s (afterPushes s bytes) := by
  refine ⟨fun r hr => ?_, fun _ _ => rfl, rfl, rfl⟩
  cases r
  case sp => exact absurd (.head _) hr
  all_goals rfl

/-- What the pushes of one instruction store, up to a page of them (R300, R302). -/
theorem pushes_afterPushes (s : State) {bytes : List Byte} (h : bytes.length ≤ 2 ^ 8) :
    Pushes bytes [] s (afterPushes s bytes) :=
  ⟨stores_of_replay (pushAddrs_nodup s _ h) rfl (by rw [List.append_nil]; rfl), rfl⟩

/-- PBR pushed before a return address (R323). -/
theorem push8_push16_eq (s : State) (b : Byte) (v : Word) :
    (s.push8 b).push16 v = afterPushes s [b, hi v, lo v] := by
  rw [push16_eq, afterPushes_cons _ _ _ (by simp)]

/-! ### Targets -/

/-- A frame that names more registers says less. -/
theorem keeps_mono {rs rs' : List Reg} {fs : List Flag} {s t : State} (h : Keeps rs fs s t)
    (hsub : ∀ r, r ∉ rs' → r ∉ rs) : Keeps rs' fs s t := by
  obtain ⟨hreg, hrest⟩ := h
  exact ⟨fun r hr => hreg r (hsub r hr), hrest⟩

/-- PC written after a frame that S alone leaves. -/
theorem keeps_sp_pc {s u : State} (h : Keeps [.sp] [] s u) (v : Word) : Keeps [.sp, .pc] [] s { u with pc := v } := by
  have hpc : Keeps [.pc, .sp] [] s { u with pc := v } := by
    refine keeps_write h (fun r hr => ?_) (fun _ _ => rfl) rfl rfl
    cases r
    case pc => exact absurd rfl hr
    all_goals rfl
  exact keeps_mono hpc (by simp +contextual)

/-- PBR and PC written after a frame that S alone leaves (R150). -/
theorem keeps_sp_pc_pbr {s u : State} (h : Keeps [.sp] [] s u) (al : Addr) :
    Keeps [.sp, .pc, .pbr] [] s (u.jumpLong al) := by
  have hpbr : Keeps [.pbr, .sp, .pc] [] s (u.jumpLong al) := by
    refine keeps_write (keeps_sp_pc h (alOffset al)) (fun r hr => ?_) (fun _ _ => rfl) rfl rfl
    cases r
    case pbr => exact absurd rfl hr
    all_goals rfl
  exact keeps_mono hpbr (by simp +contextual)

/-- The return address less one, inside the bank (R322). -/
theorem pc_sub_one (v : Word) : v - 1 = BitVec.ofNat 16 (v.toNat + 2 ^ 16 - 1) := by
  apply BitVec.eq_of_toNat_eq
  simp only [BitVec.toNat_sub, BitVec.toNat_ofNat, BitVec.reduceToNat]
  omega

/-- The address of byte `k` of the pointer at `(a,X)`, in the program bank (R149). -/
def programPointerAddr (s : State) (a : Word) (k : Nat) : Addr :=
  addrOf s.pbr (BitVec.ofNat 16 (a.toNat + s.readX.toNat + k))

/-- The pointer at `(a,X)`: two reads in the program bank, low byte first (R149). -/
theorem programPointer_eq (s : State) (a : Word) :
    let addrs := [programPointerAddr s a 0, programPointerAddr s a 1]
    (s.programPointer a).1.toNat = littleEndian (answers s addrs) ∧ (s.programPointer a).2 = afterReads s addrs := by
  intro addrs
  have hl : programPointerAddr s a 0 = addrOf s.pbr (a + s.readX) :=
    congrArg (addrOf s.pbr) (by bv_omega)
  have hh : programPointerAddr s a 1 = addrOf s.pbr (a + s.readX + 1) :=
    congrArg (addrOf s.pbr) (by bv_omega)
  simp only [addrs, hl, hh]
  constructor
  · simp only [State.programPointer, answers_cons, answers_nil, littleEndian, State.memRead_fst, word_toNat]
    omega
  · simp only [← afterReads_cons, afterReads_nil]; rfl

/-! ### JSR and JSL -/

/-- JSR a (R322). -/
theorem jsrAbs_effect (s : State) (a : Word) : ∃ t, exec (.jsrAbs a) s = .next t ∧
    Pushes [hi (s.pc - 1), lo (s.pc - 1)] [] s t ∧ t.pc = a ∧ Keeps [.sp, .pc] [] s t := by
  refine ⟨_, rfl, ?_⟩
  rw [push16_eq]
  exact ⟨pushes_afterPushes s (by simp), rfl, keeps_sp_pc (keeps_afterPushes s _) a⟩

/-- JSL al (R323). -/
theorem jslLong_effect (s : State) (al : Addr) : ∃ t, exec (.jslLong al) s = .next t ∧
    Pushes [s.pbr, hi (s.pc - 1), lo (s.pc - 1)] [] s t ∧ t.pc.toNat = al.toNat % 2 ^ 16 ∧
    t.pbr.toNat = al.toNat / 2 ^ 16 ∧ Keeps [.sp, .pc, .pbr] [] s t := by
  refine ⟨_, rfl, ?_⟩
  rw [push8_push16_eq]
  exact ⟨pushes_afterPushes s (by simp), alOffset_toNat al, alBank_toNat al,
    keeps_sp_pc_pbr (keeps_afterPushes s _) al⟩

/-- JSR (a,X): the pointer is read in the state that the pushes leave, where S does not matter (R75, R322). -/
theorem jsrAbsxind_effect (s : State) (a : Word) :
    let bytes := [hi (s.pc - 1), lo (s.pc - 1)]
    let u := afterWrites s (pushAddrs s 2) bytes
    let ptr := [programPointerAddr s a 0, programPointerAddr s a 1]
    ∃ t, exec (.jsrAbsxind a) s = .next t ∧
      (∀ p ∈ (pushAddrs s 2).zip bytes, Memory.read t.mem p.1.toNat = p.2) ∧ MemKeptBut (pushAddrs s 2) s t ∧
      t.sp = spAfterPushes s 2 ∧ t.trace = u.trace ++ readEvents u ptr ∧
      t.pc.toNat = littleEndian (answers u ptr) ∧ Keeps [.sp, .pc] [] s t := by
  intro bytes u ptr
  obtain ⟨⟨hstored, hkept, -⟩, hsp⟩ := pushes_afterPushes s (bytes := bytes) (by simp [bytes])
  obtain ⟨hval, hst⟩ := programPointer_eq (afterPushes s bytes) a
  have hanswers : answers (afterPushes s bytes) ptr = answers u ptr := answers_congr rfl rfl rfl ptr
  have hreads : readEvents (afterPushes s bytes) ptr = readEvents u ptr := readEvents_congr rfl rfl rfl ptr
  refine ⟨_, rfl, ?_⟩
  rw [push16_eq, hst]
  exact ⟨hstored, hkept, hsp, congrArg (u.trace ++ ·) hreads, hval.trans (congrArg littleEndian hanswers),
    keeps_sp_pc (keeps_afterPushes s bytes) _⟩

/-- Settles O56: one `_effect` lemma for each call, with the return address as arithmetic. -/
theorem callsPushReturnAddress : Obligations.CallsPushReturnAddress := by
  intro s a al ret bytes calls u q
  have hret : ret = s.pc - 1 := (pc_sub_one s.pc).symm
  have hbytes : bytes = [hi (s.pc - 1), lo (s.pc - 1)] := by rw [← hret]
  refine ⟨hbytes ▸ jsrAbs_effect s a, ?_, hbytes ▸ jslLong_effect s al⟩
  have h := jsrAbsxind_effect s a
  rw [← hbytes] at h
  exact h

end Sys2Proof.Proofs
end

section
/-! PROOFS. The family 30_encoding.md: decoding and encoding undo each other, and decoding is total. -/

namespace Sys2Proof.Proofs

/-! ### What `decode` answers (R100 to R102) -/

/-- Decoding needs as many bytes after the opcode as its operand has, and no others. -/
theorem decode_cons_eq_ok_iff {w : Widths} {op : Byte} {bs rest : List Byte} {i : Instr} :
    decode w (op :: bs) = .ok (i, rest) ↔ operandCount op w ≤ bs.length ∧
      decodeOp op (.ofList w (bs.take (operandCount op w))) = i ∧ bs.drop (operandCount op w) = rest := by
  by_cases hlong : operandCount op w ≤ bs.length
  · simp [decode, Nat.not_lt_of_le hlong, hlong]
  · simp [decode, Nat.lt_of_not_le hlong, hlong]

/-- The three operand bytes that the decoder looks at begin with the bytes it is given. -/
theorem take_ofList (w : Widths) {bs : List Byte} (h : bs.length ≤ 3) :
    let o := OperandBytes.ofList w bs
    [o.b1, o.b2, o.b3].take bs.length = bs := by
  match bs, h with
  | [], _ | [_], _ | [_, _], _ | [_, _, _], _ => rfl

/-! ### From an instruction to its bytes and back -/

section
open Laws.Encoding

/-- The law of its constructor, for every instruction. -/
theorem encoding_statement : ∀ i : Instr, Statement i
  | .brkSig8 k => brkSig8 k | .oraDpxind d => oraDpxind d | .copSig8 k => copSig8 k | .oraSr d => oraSr d
  | .tsbDp d => tsbDp d | .oraDp d => oraDp d | .aslDp d => aslDp d | .oraDplong d => oraDplong d
  | .phpImp => phpImp | .oraImmM k => oraImmM k | .aslAcc => aslAcc | .phdImp => phdImp | .tsbAbs a => tsbAbs a
  | .oraAbs a => oraAbs a | .aslAbs a => aslAbs a | .oraLong al => oraLong al | .bplRel8 r => bplRel8 r
  | .oraDpindy d => oraDpindy d | .oraDpind d => oraDpind d | .oraSriy d => oraSriy d | .trbDp d => trbDp d
  | .oraDpx d => oraDpx d | .aslDpx d => aslDpx d | .oraDplongy d => oraDplongy d | .clcImp => clcImp
  | .oraAbsy a => oraAbsy a | .incAcc => incAcc | .tcsImp => tcsImp | .trbAbs a => trbAbs a
  | .oraAbsx a => oraAbsx a | .aslAbsx a => aslAbsx a | .oraLongx al => oraLongx al | .jsrAbs a => jsrAbs a
  | .andDpxind d => andDpxind d | .jslLong al => jslLong al | .andSr d => andSr d | .bitDp d => bitDp d
  | .andDp d => andDp d | .rolDp d => rolDp d | .andDplong d => andDplong d | .plpImp => plpImp
  | .andImmM k => andImmM k | .rolAcc => rolAcc | .pldImp => pldImp | .bitAbs a => bitAbs a
  | .andAbs a => andAbs a | .rolAbs a => rolAbs a | .andLong al => andLong al | .bmiRel8 r => bmiRel8 r
  | .andDpindy d => andDpindy d | .andDpind d => andDpind d | .andSriy d => andSriy d | .bitDpx d => bitDpx d
  | .andDpx d => andDpx d | .rolDpx d => rolDpx d | .andDplongy d => andDplongy d | .secImp => secImp
  | .andAbsy a => andAbsy a | .decAcc => decAcc | .tscImp => tscImp | .bitAbsx a => bitAbsx a
  | .andAbsx a => andAbsx a | .rolAbsx a => rolAbsx a | .andLongx al => andLongx al | .rtiImp => rtiImp
  | .eorDpxind d => eorDpxind d | .wdmImm8 k => wdmImm8 k | .eorSr d => eorSr d
  | .mvpBlk dst src => mvpBlk dst src | .eorDp d => eorDp d | .lsrDp d => lsrDp d | .eorDplong d => eorDplong d
  | .phaImp => phaImp | .eorImmM k => eorImmM k | .lsrAcc => lsrAcc | .phkImp => phkImp | .jmpAbs a => jmpAbs a
  | .eorAbs a => eorAbs a | .lsrAbs a => lsrAbs a | .eorLong al => eorLong al | .bvcRel8 r => bvcRel8 r
  | .eorDpindy d => eorDpindy d | .eorDpind d => eorDpind d | .eorSriy d => eorSriy d
  | .mvnBlk dst src => mvnBlk dst src | .eorDpx d => eorDpx d | .lsrDpx d => lsrDpx d
  | .eorDplongy d => eorDplongy d | .cliImp => cliImp | .eorAbsy a => eorAbsy a | .phyImp => phyImp
  | .tcdImp => tcdImp | .jmlLong al => jmlLong al | .eorAbsx a => eorAbsx a | .lsrAbsx a => lsrAbsx a
  | .eorLongx al => eorLongx al | .rtsImp => rtsImp | .adcDpxind d => adcDpxind d | .perRel16 r => perRel16 r
  | .adcSr d => adcSr d | .stzDp d => stzDp d | .adcDp d => adcDp d | .rorDp d => rorDp d
  | .adcDplong d => adcDplong d | .plaImp => plaImp | .adcImmM k => adcImmM k | .rorAcc => rorAcc
  | .rtlImp => rtlImp | .jmpAbsind a => jmpAbsind a | .adcAbs a => adcAbs a | .rorAbs a => rorAbs a
  | .adcLong al => adcLong al | .bvsRel8 r => bvsRel8 r | .adcDpindy d => adcDpindy d
  | .adcDpind d => adcDpind d | .adcSriy d => adcSriy d | .stzDpx d => stzDpx d | .adcDpx d => adcDpx d
  | .rorDpx d => rorDpx d | .adcDplongy d => adcDplongy d | .seiImp => seiImp | .adcAbsy a => adcAbsy a
  | .plyImp => plyImp | .tdcImp => tdcImp | .jmpAbsxind a => jmpAbsxind a | .adcAbsx a => adcAbsx a
  | .rorAbsx a => rorAbsx a | .adcLongx al => adcLongx al | .braRel8 r => braRel8 r
  | .staDpxind d => staDpxind d | .brlRel16 r => brlRel16 r | .staSr d => staSr d | .styDp d => styDp d
  | .staDp d => staDp d | .stxDp d => stxDp d | .staDplong d => staDplong d | .deyImp => deyImp
  | .bitImmM k => bitImmM k | .txaImp => txaImp | .phbImp => phbImp | .styAbs a => styAbs a
  | .staAbs a => staAbs a | .stxAbs a => stxAbs a | .staLong al => staLong al | .bccRel8 r => bccRel8 r
  | .staDpindy d => staDpindy d | .staDpind d => staDpind d | .staSriy d => staSriy d | .styDpx d => styDpx d
  | .staDpx d => staDpx d | .stxDpy d => stxDpy d | .staDplongy d => staDplongy d | .tyaImp => tyaImp
  | .staAbsy a => staAbsy a | .txsImp => txsImp | .txyImp => txyImp | .stzAbs a => stzAbs a
  | .staAbsx a => staAbsx a | .stzAbsx a => stzAbsx a | .staLongx al => staLongx al | .ldyImmX k => ldyImmX k
  | .ldaDpxind d => ldaDpxind d | .ldxImmX k => ldxImmX k | .ldaSr d => ldaSr d | .ldyDp d => ldyDp d
  | .ldaDp d => ldaDp d | .ldxDp d => ldxDp d | .ldaDplong d => ldaDplong d | .tayImp => tayImp
  | .ldaImmM k => ldaImmM k | .taxImp => taxImp | .plbImp => plbImp | .ldyAbs a => ldyAbs a
  | .ldaAbs a => ldaAbs a | .ldxAbs a => ldxAbs a | .ldaLong al => ldaLong al | .bcsRel8 r => bcsRel8 r
  | .ldaDpindy d => ldaDpindy d | .ldaDpind d => ldaDpind d | .ldaSriy d => ldaSriy d | .ldyDpx d => ldyDpx d
  | .ldaDpx d => ldaDpx d | .ldxDpy d => ldxDpy d | .ldaDplongy d => ldaDplongy d | .clvImp => clvImp
  | .ldaAbsy a => ldaAbsy a | .tsxImp => tsxImp | .tyxImp => tyxImp | .ldyAbsx a => ldyAbsx a
  | .ldaAbsx a => ldaAbsx a | .ldxAbsy a => ldxAbsy a | .ldaLongx al => ldaLongx al | .cpyImmX k => cpyImmX k
  | .cmpDpxind d => cmpDpxind d | .repImm8 k => repImm8 k | .cmpSr d => cmpSr d | .cpyDp d => cpyDp d
  | .cmpDp d => cmpDp d | .decDp d => decDp d | .cmpDplong d => cmpDplong d | .inyImp => inyImp
  | .cmpImmM k => cmpImmM k | .dexImp => dexImp | .waiImp => waiImp | .cpyAbs a => cpyAbs a
  | .cmpAbs a => cmpAbs a | .decAbs a => decAbs a | .cmpLong al => cmpLong al | .bneRel8 r => bneRel8 r
  | .cmpDpindy d => cmpDpindy d | .cmpDpind d => cmpDpind d | .cmpSriy d => cmpSriy d
  | .peiDpind d => peiDpind d | .cmpDpx d => cmpDpx d | .decDpx d => decDpx d | .cmpDplongy d => cmpDplongy d
  | .cldImp => cldImp | .cmpAbsy a => cmpAbsy a | .phxImp => phxImp | .stpImp => stpImp
  | .jmlAbslongind a => jmlAbslongind a | .cmpAbsx a => cmpAbsx a | .decAbsx a => decAbsx a
  | .cmpLongx al => cmpLongx al | .cpxImmX k => cpxImmX k | .sbcDpxind d => sbcDpxind d
  | .sepImm8 k => sepImm8 k | .sbcSr d => sbcSr d | .cpxDp d => cpxDp d | .sbcDp d => sbcDp d
  | .incDp d => incDp d | .sbcDplong d => sbcDplong d | .inxImp => inxImp | .sbcImmM k => sbcImmM k
  | .nopImp => nopImp | .xbaImp => xbaImp | .cpxAbs a => cpxAbs a | .sbcAbs a => sbcAbs a
  | .incAbs a => incAbs a | .sbcLong al => sbcLong al | .beqRel8 r => beqRel8 r | .sbcDpindy d => sbcDpindy d
  | .sbcDpind d => sbcDpind d | .sbcSriy d => sbcSriy d | .peaImm16 v => peaImm16 v | .sbcDpx d => sbcDpx d
  | .incDpx d => incDpx d | .sbcDplongy d => sbcDplongy d | .sedImp => sedImp | .sbcAbsy a => sbcAbsy a
  | .plxImp => plxImp | .xceImp => xceImp | .jsrAbsxind a => jsrAbsxind a | .sbcAbsx a => sbcAbsx a
  | .incAbsx a => incAbsx a | .sbcLongx al => sbcLongx al

end

/-- Settles O1: the operand has the length that the opcode selects, so `decode` cuts the bytes where it ends. -/
theorem decodeOfEncode : Obligations.DecodeOfEncode := by
  intro w i rest hwf
  obtain ⟨hcount, hdecode⟩ := encoding_statement i w hwf
  rw [encode, List.cons_append, decode_cons_eq_ok_iff, hcount, List.take_left, List.drop_left, List.length_append]
  exact ⟨Nat.le_add_right _ _, hdecode, rfl⟩

/-! ### The cells of the opcode map: the instruction there is well formed, and its bytes are those read (R109) -/

theorem fits_immOf (w : Width) (b1 b2 : Byte) : (immOf w b1 b2).fits w = true := by
  cases w <;> rfl

theorem bytes_immOf (w : Width) (b1 b2 b3 : Byte) : (immOf w b1 b2).bytes = [b1, b2, b3].take (w.bits / 8) := by
  cases w <;> simp [immOf, Imm.bytes, Width.bits]

theorem bytes_word (b1 b2 : Byte) : [lo (word b2 b1), hi (word b2 b1)] = [b1, b2] := by simp

theorem append_word_toNat (b1 b2 b3 : Byte) :
    (b3 ++ word b2 b1).toNat = b3.toNat * 2 ^ 16 + (b2.toNat * 2 ^ 8 + b1.toNat) := by
  rw [← word_toNat, ← addrOf_toNat]; rfl

theorem alLo_append_word (b1 b2 b3 : Byte) : alLo (b3 ++ word b2 b1) = b1 := by
  apply BitVec.eq_of_toNat_eq; rw [alLo_toNat, append_word_toNat]; omega

theorem alHi_append_word (b1 b2 b3 : Byte) : alHi (b3 ++ word b2 b1) = b2 := by
  apply BitVec.eq_of_toNat_eq; rw [alHi_toNat, append_word_toNat]; omega

theorem bytes_long (b1 b2 b3 : Byte) :
    [alLo (b3 ++ word b2 b1), alHi (b3 ++ word b2 b1), alBank (b3 ++ word b2 b1)] = [b1, b2, b3] := by
  rw [alLo_append_word, alHi_append_word, show alBank (b3 ++ word b2 b1) = b3 from alBank_addrOf b3 _]

/-- An immediate has the width it was decoded at; every other cell is well formed at every width (R102). -/
theorem wf_decodeRow {row col : Nat} (hr : row < 16) (hc : col < 16) (o : OperandBytes) :
    (Laws.Encoding.decodeRow row col o).wf o.w = true := by
  interval_cases row <;> interval_cases col <;> try rfl
  all_goals exact fits_immOf _ _ _

/-- The cell at `row` and `col` holds the instruction with that opcode (R100, R109). -/
theorem opcode_decodeRow {row col : Nat} (hr : row < 16) (hc : col < 16) (o : OperandBytes) :
    (Laws.Encoding.decodeRow row col o).opcode = BitVec.ofNat 8 (16 * row + col) := by
  interval_cases row <;> interval_cases col <;> rfl

/-- The operand bytes that a cell of each length has: a 16-bit and a 24-bit operand are put together from the bytes
read, an immediate is the one of R103. -/
def lenBytes (o : OperandBytes) : OperandLen → List Byte
  | .n0 => []
  | .n1 => [o.b1]
  | .n2 => [lo (word o.b2 o.b1), hi (word o.b2 o.b1)]
  | .n3 => [alLo (o.b3 ++ word o.b2 o.b1), alHi (o.b3 ++ word o.b2 o.b1), alBank (o.b3 ++ word o.b2 o.b1)]
  | .im => (immOf o.w.m o.b1 o.b2).bytes
  | .ix => (immOf o.w.x o.b1 o.b2).bytes

/-- They are the first of the bytes read, as many as the length counts (R102 to R107). -/
theorem lenBytes_eq_take (o : OperandBytes) (l : OperandLen) :
    lenBytes o l = [o.b1, o.b2, o.b3].take (l.count o.w) := by
  cases l
  case n0 | n1 => rfl
  case n2 => exact bytes_word _ _
  case n3 => exact bytes_long _ _ _
  case im | ix => exact bytes_immOf _ _ _ _

/-- Each cell has the operand bytes of its length; the two bytes of a block move stay apart (R106). -/
theorem operandBytes_decodeRow {row col : Nat} (hr : row < 16) (hc : col < 16) (o : OperandBytes) :
    (Laws.Encoding.decodeRow row col o).operandBytes =
      lenBytes o (((operandLensLow ++ operandLensHigh).getD row []).getD col .n0) := by
  interval_cases row <;> interval_cases col <;> try rfl
  all_goals exact (bytes_word _ _).symm

/-! ### From bytes to an instruction and back -/

theorem wf_decodeOp (op : Byte) (o : OperandBytes) : (decodeOp op o).wf o.w = true := by
  have hop := op.isLt
  exact wf_decodeRow (row := op.toNat / 16) (col := op.toNat % 16) (by omega) (by omega) o

theorem opcode_decodeOp (op : Byte) (o : OperandBytes) : (decodeOp op o).opcode = op := by
  have hop := op.isLt
  have h := opcode_decodeRow (row := op.toNat / 16) (col := op.toNat % 16) (by omega) (by omega) o
  rw [Nat.div_add_mod, BitVec.ofNat_toNat, BitVec.setWidth_eq] at h
  exact h

theorem operandBytes_decodeOp (op : Byte) (o : OperandBytes) :
    (decodeOp op o).operandBytes = [o.b1, o.b2, o.b3].take (operandCount op o.w) := by
  have hop := op.isLt
  have h := operandBytes_decodeRow (row := op.toNat / 16) (col := op.toNat % 16) (by omega) (by omega) o
  exact h.trans (lenBytes_eq_take o _)

/-- The opcode map loses none of the bytes it is given: encoding what it selects writes them again. -/
theorem encode_decodeOp_ofList {w : Widths} {op : Byte} {bs : List Byte} (h : bs.length = operandCount op w) :
    encode (decodeOp op (.ofList w bs)) = op :: bs := by
  have htake := take_ofList w (h.trans_le (operandCount_le op w))
  rw [h] at htake
  rw [encode, opcode_decodeOp, operandBytes_decodeOp]
  exact congrArg (op :: ·) htake

/-- Settles O2: a string that decodes is not short, so its operand bytes are the ones the opcode map is given. -/
theorem encodeOfDecode : Obligations.EncodeOfDecode := by
  intro w bytes i rest h
  cases bytes with
  | nil => cases h
  | cons op bs =>
    obtain ⟨hlong, rfl, rfl⟩ := decode_cons_eq_ok_iff.1 h
    refine ⟨wf_decodeOp op _, ?_⟩
    rw [encode_decodeOp_ofList (List.length_take_of_le hlong), List.cons_append, List.take_append_drop]

/-- Settles O3: three bytes after the opcode are enough for every operand. -/
theorem decodingIsTotal : Obligations.DecodingIsTotal := by
  intro w op b1 b2 b3
  have hcount := operandCount_le op w
  have hlen : (decodeOp op (.ofList w ([b1, b2, b3].take (operandCount op w)))).length = operandCount op w + 1 :=
    length_decodeOp op _
  have hrest : ([b1, b2, b3].drop (operandCount op w)).length = 3 - operandCount op w := List.length_drop
  exact ⟨_, _, decode_cons_eq_ok_iff.2 ⟨hcount, rfl, rfl⟩, opcode_decodeOp op _, by omega, by omega, by omega⟩

/-- Settles O4: the decoder, run on the eight words. -/
theorem sampleWordsDecode : Obligations.SampleWordsDecode := by
  unfold Obligations.SampleWordsDecode
  decide

end Sys2Proof.Proofs
end

section
/-! PROOFS. The family 40_addressing.md: the effective address of every memory mode, as arithmetic (R134 to R146). -/

namespace Sys2Proof.Proofs

open Sys2Proof.Machine Sys2Proof.Safety

/-! ### The page wrap of the direct page (R135) -/

/-- When the direct page wraps inside the page D[15:8]. -/
abbrev DpWraps (s : State) : Prop := s.params.emuDpPageWrap = true ∧ s.e = true ∧ s.d.toNat % 2 ^ 8 = 0

theorem dpPageWrap_iff (s : State) : s.dpPageWrap = true ↔ DpWraps s := by
  have hlo : lo s.d = 0 ↔ s.d.toNat % 2 ^ 8 = 0 := by rw [← BitVec.toNat_inj, lo_toNat]; rfl
  simp only [State.dpPageWrap, Bool.and_eq_true, beq_iff_eq, hlo, and_assoc, DpWraps]

/-- The offset of byte `n` of the direct page, before it is cut to 16 bits (R134, R135). -/
def dpOffset (s : State) (n : Nat) : Nat := if DpWraps s then s.d.toNat + n % 2 ^ 8 else s.d.toNat + n

/-- `Dp(v)`, where `v` is the sum `n` of an operand and an index, cut to 16 bits. -/
theorem dpAddr_eq (s : State) {v : Word} {n : Nat} (h : v.toNat = n % 2 ^ 16) :
    s.dpAddr v = bank0 (dpOffset s n) := by
  unfold State.dpAddr dpOffset
  by_cases hw : DpWraps s
  · have ⟨_, _, hd⟩ := hw
    rw [if_pos hw, if_pos ((dpPageWrap_iff s).2 hw), addrOf_zero, word_toNat, hi_toNat, lo_toNat]
    exact bank0_congr (by omega)
  · rw [if_neg hw, if_neg (mt (dpPageWrap_iff s).1 hw), addrOf_zero, BitVec.toNat_add]
    exact bank0_congr (by omega)

/-! ### Operands plus an index -/

theorem zext_toNat_mod (d : Byte) : (zext d).toNat = d.toNat % 2 ^ 16 := by
  have := d.isLt
  rw [zext_toNat]; omega

theorem zext_add_toNat (d : Byte) (v : Word) : (zext d + v).toNat = (d.toNat + v.toNat) % 2 ^ 16 := by
  rw [BitVec.toNat_add, zext_toNat]

/-- A base register plus a byte, in bank $00 (R136, R139, R142). -/
theorem addrOf_zero_add_zext (v : Word) (d : Byte) : addrOf 0x00 (v + zext d) = bank0 (v.toNat + d.toNat) := by
  rw [addrOf_zero, BitVec.toNat_add, zext_toNat]
  exact bank0_congr (by omega)

/-- Settles O26: `Dp` for the three direct-page modes, S plus the operand for the fourth. -/
theorem directAndStackAddresses : Obligations.DirectAndStackAddresses := by
  intro s d at' dp
  exact ⟨⟨dpAddr_eq s (zext_toNat_mod d), rfl, rfl, rfl⟩, ⟨dpAddr_eq s (zext_add_toNat d s.readX), rfl, rfl, rfl⟩,
    ⟨dpAddr_eq s (zext_add_toNat d s.readY), rfl, rfl, rfl⟩, ⟨addrOf_zero_add_zext s.sp d, rfl, rfl, rfl⟩⟩

/-! ### A bank, an offset and an index (R144, R154) -/

/-- A 24-bit address whose number is known, plus an index: the sum carries into the bank. -/
theorem addr_add_index {a : Addr} {n : Nat} (h : a.toNat = n) (i : Word) :
    a + i.setWidth 24 = BitVec.ofNat 24 (n + i.toNat) := by
  have := i.isLt
  apply BitVec.eq_of_toNat_eq
  simp only [BitVec.toNat_add, BitVec.toNat_setWidth, BitVec.toNat_ofNat, h]
  omega

theorem addr_eq_ofNat {a : Addr} {n : Nat} (h : a.toNat = n) : a = BitVec.ofNat 24 n := by
  rw [← h, BitVec.ofNat_toNat, BitVec.setWidth_eq]

/-- `bank:offset`, where the offset's number is known. -/
theorem addrOf_toNat_of {v : Word} {n : Nat} (h : v.toNat = n) (bank : Byte) :
    (addrOf bank v).toNat = bank.toNat * 2 ^ 16 + n := by
  rw [addrOf_toNat, h]

/-- The page-cross predicate, where the base's number is known (R154). -/
theorem pageCrossed_eq {v : Word} {n : Nat} (h : v.toNat = n) (i : Word) :
    pageCrossed v i = decide ((n + i.toNat) / 2 ^ 8 ≠ n / 2 ^ 8) := by
  rw [pageCrossed, h]

/-- Settles O28: a bank and an offset, or a whole address, and then the index. -/
theorem absoluteAndLongAddresses : Obligations.AbsoluteAndLongAddresses := by
  intro s a al at' data crosses
  have hdata : (addrOf s.dbr a).toNat = data := addrOf_toNat s.dbr a
  exact ⟨⟨addr_eq_ofNat hdata, rfl, rfl, rfl⟩,
    ⟨addr_add_index hdata s.readX, rfl, pageCrossed_eq rfl s.readX, rfl⟩,
    ⟨addr_add_index hdata s.readY, rfl, pageCrossed_eq rfl s.readY, rfl⟩,
    ⟨addr_eq_ofNat rfl, rfl, rfl, rfl⟩, ⟨addr_add_index rfl s.readX, rfl, rfl, rfl⟩⟩

/-! ### Pointers (R137 to R143) -/

/-- The bytes of a value in bank $00 wrap inside the bank (R86). -/
theorem byteAddrs_bank0 (m n : Nat) :
    byteAddrs .bank0 (bank0 m) n = (List.range n).map fun k => bank0 (m + k) :=
  List.map_congr_left fun k _ => bank0_congr (by rw [bank0_toNat]; omega)

/-- The two bytes of the pointer at byte `n` of the direct page: the second wraps as R135 says. -/
def dpPointer (s : State) (n : Nat) : List Addr :=
  [bank0 (dpOffset s n), if DpWraps s then bank0 (dpOffset s (n + 1)) else bank0 (dpOffset s n + 1)]

theorem pointerReads_eq (s : State) (n : Nat) : pointerReads s (bank0 (dpOffset s n)) = dpPointer s n := by
  unfold pointerReads dpPointer
  by_cases hw : DpWraps s
  · have ⟨_, _, hd⟩ := hw
    have := s.d.isLt
    have hnext : (word (alHi (bank0 (dpOffset s n))) (alLo (bank0 (dpOffset s n)) + 1)).toNat =
        dpOffset s (n + 1) := by
      simp only [dpOffset, if_pos hw, word_toNat, alHi_toNat, BitVec.toNat_add, alLo_toNat, bank0_toNat,
        BitVec.reduceToNat]
      omega
    rw [if_pos hw, if_pos ((dpPageWrap_iff s).2 hw), addrOf_zero, hnext]
  · rw [if_neg hw, if_neg (mt (dpPageWrap_iff s).1 hw), byteAddrs_bank0]
    rfl

/-- `DpPtr16(Dp(v))`: the pointer's value and the reads it takes. -/
theorem dpPtr_dpAddr (s : State) {v : Word} {n : Nat} (h : v.toNat = n % 2 ^ 16) :
    (s.dpPtr (s.dpAddr v)).1.toNat = littleEndian (answers s (dpPointer s n)) ∧
      (s.dpPtr (s.dpAddr v)).2 = afterReads s (dpPointer s n) := by
  rw [dpAddr_eq s h, ← pointerReads_eq]
  exact dpPtr_eq s _

/-- The 16-bit value at an offset of bank $00. -/
theorem read16_bank0 (s : State) {a : Addr} {n : Nat} (h : a = bank0 n) :
    (s.read16 .bank0 a).1.toNat = littleEndian (answers s [bank0 n, bank0 (n + 1)]) ∧
      (s.read16 .bank0 a).2 = afterReads s [bank0 n, bank0 (n + 1)] := by
  subst h
  have hread := read16_eq s .bank0 (bank0 n)
  rwa [byteAddrs_bank0] at hread

/-- The 24-bit value at an offset of bank $00. -/
theorem read24_bank0 (s : State) {a : Addr} {n : Nat} (h : a = bank0 n) :
    (s.read24 .bank0 a).1.toNat = littleEndian (answers s [bank0 n, bank0 (n + 1), bank0 (n + 2)]) ∧
      (s.read24 .bank0 a).2 = afterReads s [bank0 n, bank0 (n + 1), bank0 (n + 2)] := by
  subst h
  have hread := read24_eq s .bank0 (bank0 n)
  rwa [byteAddrs_bank0] at hread

/-- Settles O27: each mode is one of four pointers, then DBR or the pointer's own bank, then Y or no index. -/
theorem indirectAddresses : Obligations.IndirectAddresses := by
  intro s d at' wrap dp ptr long stack p data y
  obtain ⟨hval, hst⟩ := dpPtr_dpAddr s (zext_toNat_mod d)
  obtain ⟨hxval, hxst⟩ := dpPtr_dpAddr s (zext_add_toNat d s.readX)
  obtain ⟨hlval, hlst⟩ := read24_bank0 s (addrOf_zero_add_zext s.d d)
  obtain ⟨hsval, hsst⟩ := read16_bank0 s (addrOf_zero_add_zext s.sp d)
  exact ⟨⟨addr_eq_ofNat (addrOf_toNat_of hval _), rfl, rfl, hst⟩,
    ⟨addr_eq_ofNat (addrOf_toNat_of hxval _), rfl, rfl, hxst⟩,
    ⟨addr_add_index (addrOf_toNat_of hval _) _, rfl, pageCrossed_eq hval _, hst⟩,
    ⟨addr_eq_ofNat hlval, rfl, rfl, hlst⟩, ⟨addr_add_index hlval _, rfl, rfl, hlst⟩,
    ⟨addr_add_index (addrOf_toNat_of hsval _) _, rfl, rfl, hsst⟩⟩

end Sys2Proof.Proofs
end

section
/-! PROOFS. The family 40_addressing.md: the jumps and branches (R147 to R151). -/

namespace Sys2Proof.Proofs

open Sys2Proof.Machine Sys2Proof.Safety

/-! ### Jumps -/

/-- PC written after a frame that leaves every register. -/
theorem keeps_pc {s u : State} (h : Keeps [] [] s u) (v : Word) (n : Nat) :
    Keeps [.pc] [] s ({ u with pc := v }.charge n) := by
  refine keeps_write h (fun r hr => ?_) (fun _ _ => rfl) rfl rfl
  cases r
  case pc => exact absurd rfl hr
  all_goals rfl

/-- PBR and PC written after a frame that leaves every register (R147, R150). -/
theorem keeps_pc_pbr {s u : State} (h : Keeps [] [] s u) (al : Addr) (n : Nat) :
    Keeps [.pc, .pbr] [] s ((u.jumpLong al).charge n) := by
  have hpbr : Keeps [.pbr, .pc] [] s ((u.jumpLong al).charge n) := by
    refine keeps_write (keeps_pc h (alOffset al) n) (fun r hr => ?_) (fun _ _ => rfl) rfl rfl
    cases r
    case pbr => exact absurd rfl hr
    all_goals rfl
  exact keeps_mono hpbr (by simp +contextual)

/-- A jump to a 16-bit target after the reads of its pointer: PBR is kept (R147 to R149, R320). -/
theorem jump_effect (s : State) {u : State} {v : Word} {target : Nat} {reads : List Addr} (hv : v.toNat = target)
    (hu : u = afterReads s reads) (n : Nat) :
    let t := { u with pc := v }.charge n
    t.pc.toNat = target ∧ t.pbr.toNat = s.pbr.toNat ∧ Keeps [.pc] [] s t ∧ MemKeptBut [] s t ∧
      t.trace = s.trace ++ readEvents s reads := by
  subst hu
  exact ⟨hv, rfl, keeps_pc (keeps_reads s reads) v n, memKept_of_eq rfl, rfl⟩

/-- A jump to a 24-bit target after the reads of its pointer (R147, R150, R321). -/
theorem jumpLong_effect (s : State) {u : State} {al : Addr} {target : Nat} {reads : List Addr}
    (hal : al.toNat = target) (hu : u = afterReads s reads) (n : Nat) :
    let t := (u.jumpLong al).charge n
    t.pc.toNat = target % 2 ^ 16 ∧ t.pbr.toNat = target / 2 ^ 16 ∧ Keeps [.pc, .pbr] [] s t ∧ MemKeptBut [] s t ∧
      t.trace = s.trace ++ readEvents s reads := by
  subst hu hal
  exact ⟨alOffset_toNat al, alBank_toNat al, keeps_pc_pbr (keeps_reads s reads) al n, memKept_of_eq rfl, rfl⟩

/-- Settles O55: each form by the jump of its length, with the pointer that it reads. -/
theorem jumpsGoToTarget : Obligations.JumpsGoToTarget := by
  intro s a al jumps p2 p3 q
  have hdirect : s = afterReads s [] := (afterReads_nil s).symm
  obtain ⟨hval, hst⟩ := read16_bank0 s (addrOf_zero a)
  obtain ⟨hlval, hlst⟩ := read24_bank0 s (addrOf_zero a)
  obtain ⟨hxval, hxst⟩ := programPointer_eq s a
  exact ⟨⟨_, rfl, jump_effect s rfl hdirect _⟩, ⟨_, rfl, jump_effect s hval hst _⟩,
    ⟨_, rfl, jump_effect s hxval hxst _⟩, ⟨_, rfl, jumpLong_effect s rfl hdirect _⟩,
    ⟨_, rfl, jumpLong_effect s hlval hlst _⟩⟩

/-! ### Branches -/

/-- PC written and nothing else. -/
theorem branchTo_effect (s : State) {v : Word} {target : Nat} (hv : v.toNat = target) (n : Nat) :
    let t := { s with pc := v }.charge n
    t.pc.toNat = target ∧ Keeps [.pc] [] s t ∧ MemKeptBut [] s t ∧ t.trace = s.trace :=
  ⟨hv, keeps_pc (keeps_refl s) v n, memKept_of_eq rfl, rfl⟩

/-- Where a branch goes: the displacement counts down from $80 on, inside the bank (R151, R330). -/
theorem branch_target (s : State) (taken : Bool) (r : Byte) :
    (if taken then s.pc + sext r else s.pc).toNat =
      if taken then (s.pc.toNat + if r.toNat < 0x80 then r.toNat else r.toNat + 0xFF00) % 2 ^ 16
      else s.pc.toNat := by
  cases taken
  · rfl
  · simp only [if_true, BitVec.toNat_add, sext_toNat]

/-- The nine branches with an 8-bit displacement (R331 to R339). -/
theorem exec_branchForm {s : State} {i : Instr} {taken : Bool} {r : Byte} (h : branchForm s i = some (taken, r)) :
    ∃ base mods, exec i s = .next (branch taken r base mods s) := by
  unfold branchForm at h
  split at h <;> cases h <;> exact ⟨_, _, rfl⟩

/-- Settles O58: BRL is the jump of a branch whose displacement is 16 bits already. -/
theorem branchesGoToTarget : Obligations.BranchesGoToTarget := by
  intro s goes disp
  refine ⟨fun i taken r hform => ?_, fun r => ⟨_, rfl, branchTo_effect s (BitVec.toNat_add s.pc r) _⟩⟩
  obtain ⟨base, mods, hexec⟩ := exec_branchForm hform
  exact ⟨_, hexec, branchTo_effect s (branch_target s taken r) _⟩

end Sys2Proof.Proofs
end

section
/-! PROOFS. The family 40_addressing.md: the shifts, rotates and counters on the accumulator (R152). -/

namespace Sys2Proof.Proofs

open Sys2Proof.Machine Sys2Proof.Safety

/-! ### Shifts and rotates, as arithmetic (R176, R177) -/

/-- The primitive of each shift and rotate. -/
def shiftOut (w : Width) (v : Word) (cin : Bool) : ShiftKind → ShiftOut
  | .asl => asl w v
  | .lsr => lsr v
  | .rol => rol w v cin
  | .ror => ror w v cin

/-- A bit put in at the place that a shift to the left frees. -/
theorem shiftLeft_or_bit_toNat (v : Word) (cin : Bool) :
    (v <<< 1 ||| BitVec.ofNat 16 cin.toNat).toNat = (2 * v.toNat + cin.toNat) % 2 ^ 16 := by
  have hcin : cin.toNat < 2 ^ 1 := cin.toNat_lt
  have hshift : (v <<< 1).toNat = 2 ^ 1 * (v.toNat % 2 ^ 15) := by
    rw [BitVec.toNat_shiftLeft, Nat.shiftLeft_eq]; omega
  rw [BitVec.toNat_or, hshift, BitVec.toNat_ofNat, Nat.mod_eq_of_lt (b := 2 ^ 16) (by omega),
    ← Nat.two_pow_add_eq_or_of_lt hcin]
  omega

theorem rol_toNat (w : Width) (v : Word) (cin : Bool) :
    (rol w v cin).result.toNat = (2 * v.toNat + cin.toNat) % 2 ^ w.bits := by
  rw [rol, trunc_toNat, shiftLeft_or_bit_toNat]
  cases w <;> simp only [Width.bits] <;> omega

/-- `Ror` of a value of the width as arithmetic: the carry comes in at the top, above the value shifted. -/
theorem ror_toNat {w : Width} {v : Word} (h : v.toNat < 2 ^ w.bits) (cin : Bool) :
    (ror w v cin).result.toNat = v.toNat / 2 + cin.toNat * 2 ^ (w.bits - 1) := by
  have hlow : v.toNat / 2 < 2 ^ (w.bits - 1) := by
    cases w <;> simp only [Width.bits] at h ⊢ <;> omega
  have hbit : (BitVec.ofNat 16 cin.toNat <<< (w.bits - 1)).toNat = cin.toNat * 2 ^ (w.bits - 1) := by
    cases w <;> cases cin <;> rfl
  rw [ror, BitVec.toNat_or, BitVec.toNat_ushiftRight, Nat.shiftRight_one, hbit, Nat.or_comm, Nat.mul_comm,
    ← Nat.two_pow_add_eq_or_of_lt hlow, Nat.add_comm]

theorem shiftOut_result {w : Width} {v : Word} (h : v.toNat < 2 ^ w.bits) (cin : Bool) (kind : ShiftKind) :
    (shiftOut w v cin kind).result = BitVec.ofNat 16 (shifted w.bits v.toNat cin.toNat kind) := by
  have hnat : (shiftOut w v cin kind).result.toNat = shifted w.bits v.toNat cin.toNat kind := by
    cases kind
    case asl => exact asl_toNat w v
    case lsr => exact lsr_toNat v
    case rol => exact rol_toNat w v cin
    case ror => exact ror_toNat h cin
  rw [← hnat, BitVec.ofNat_toNat, BitVec.setWidth_eq]

/-- The top bit goes out on the left, bit 0 on the right. -/
theorem shiftOut_c {w : Width} {v : Word} (h : v.toNat < 2 ^ w.bits) (cin : Bool) (kind : ShiftKind) :
    (shiftOut w v cin kind).c = shiftedOut w.bits v.toNat kind := by
  have htop : v.getLsbD (w.bits - 1) = decide (2 ^ (w.bits - 1) ≤ v.toNat) := by rw [sign_eq, Nat.mod_eq_of_lt h]
  have hlow : v.getLsbD 0 = decide (v.toNat % 2 = 1) := by
    rw [BitVec.getLsbD, Nat.testBit_zero]
  cases kind
  case asl => exact htop
  case lsr => exact hlow
  case rol => exact htop
  case ror => exact hlow

/-- `shiftFlags` writes N, Z and C only. -/
theorem flagOf_shiftFlags_other (w : Width) (o : ShiftOut) (p : Byte) {f : Flag} (h : f ∉ [Flag.n, .z, .c]) :
    flagOf (shiftFlags w o p) f = flagOf p f := by
  simp only [List.mem_cons, List.not_mem_nil, or_false, not_or] at h
  obtain ⟨hn, hz, hc⟩ := h
  simp [hn, hz, hc]

/-! ### On the accumulator -/

theorem readA_lt (s : State) : s.readA.toNat < 2 ^ s.wA.bits := by
  rw [readA_eq_trunc, trunc_toNat]
  exact Nat.mod_lt _ (Nat.two_pow_pos _)

/-- A shift or rotate of the accumulator: its result with N, Z and C (R152, R260). -/
theorem shiftA_effect (s : State) (o : ShiftOut) (n : Nat) :
    let t := { s.writeA o.result with p := shiftFlags s.wA o s.p }.charge n
    WritesA s t o.result ∧ t.flag .c = o.c ∧ NZ t o.result s.wA ∧ Keeps [.c] [.n, .z, .c] s t ∧
      MemKeptBut [] s t ∧ t.trace = s.trace := by
  intro t
  have hflag : ∀ g, t.flag g = flagOf (shiftFlags s.wA o s.p) g := fun _ => rfl
  obtain ⟨hw, hk⟩ := writeA_effect (keeps_refl s) List.not_mem_nil
    (fun _ hf => flagOf_shiftFlags_other s.wA o s.p hf) o.result n
  refine ⟨hw, ?_, nz_of_flags ?_ ?_ rfl, hk, memKept_of_eq rfl, rfl⟩ <;>
    rw [hflag, flagOf_shiftFlags] <;> rfl

/-- The four forms on the accumulator are the four primitives (R261 to R264). -/
theorem exec_shiftAccForm (kind : ShiftKind) (s : State) :
    let o := shiftOut s.wA s.readA (s.flag .c) kind
    ∃ n, exec (shiftAccForm kind) s = .next ({ s.writeA o.result with p := shiftFlags s.wA o s.p }.charge n) := by
  cases kind <;> exact ⟨_, rfl⟩

/-- INC and DEC of the accumulator (R152, R265, R266). -/
theorem exec_countAcc (s : State) (up : Bool) :
    let v := BitVec.ofNat 16 (counted s.wA.bits s.readA.toNat up)
    ∃ n, exec (if up then .incAcc else .decAcc) s = .next (((s.writeA v).putNZ v s.wA).charge n) := by
  cases up with
  | true => rw [← inc_eq_counted]; exact ⟨_, rfl⟩
  | false => rw [← dec_eq_counted]; exact ⟨_, rfl⟩

/-- Settles O48: the shifts and rotates by their primitives as arithmetic, then the counters. -/
theorem accumulatorIsModifiedInPlace : Obligations.AccumulatorIsModifiedInPlace := by
  intro s a quiet
  constructor
  · intro kind v
    have hv : v = (shiftOut s.wA s.readA (s.flag .c) kind).result := (shiftOut_result (readA_lt s) _ kind).symm
    have hc : (shiftOut s.wA s.readA (s.flag .c) kind).c = shiftedOut s.wA.bits a kind := shiftOut_c (readA_lt s) _ kind
    obtain ⟨n, hexec⟩ := exec_shiftAccForm kind s
    rw [hv, ← hc]
    exact ⟨_, hexec, shiftA_effect s _ n⟩
  · intro up v
    obtain ⟨n, hexec⟩ := exec_countAcc s up
    obtain ⟨hw, hnz, hk⟩ := writeA_putNZ_effect (keeps_refl s) List.not_mem_nil v n
    exact ⟨_, hexec, hw, hnz, hk, memKept_of_eq rfl, rfl⟩

end Sys2Proof.Proofs
end

section
/-! PROOFS. The family 41_alu.md: the flags that the comparisons and BIT write, and nothing else (R174, R179). -/

namespace Sys2Proof.Proofs

open Sys2Proof.Machine Sys2Proof.Safety

/-! ### P written alone -/

/-- P written after a frame that leaves every register: the frame names the flags written. -/
theorem keeps_withP {fs : List Flag} {s u : State} {p : Byte} (hu : Keeps [] [] s u)
    (hk : ∀ f, f ∉ fs → flagOf p f = s.flag f) (n : Nat) : Keeps [] fs s ({ u with p := p }.charge n) := by
  obtain ⟨hreg, -, hdiag, hparams⟩ := hu
  refine ⟨fun r hr => Eq.trans ?_ (hreg r hr), hk, hdiag, hparams⟩
  cases r <;> rfl

/-- P written after an operand is read: all that the tests of this family do. -/
theorem operand_withP_effect {fs : List Flag} (s : State) (src : Operand) (w : Width) {p : Byte}
    (hk : ∀ f, f ∉ fs → flagOf p f = s.flag f) (n : Nat) :
    let f := s.operandRead src w
    let t := { f.st with p := p }.charge n
    Keeps [] fs s t ∧ MemKeptBut [] s t ∧ t.trace = f.st.trace :=
  ⟨keeps_withP (keeps_operandRead s src w) hk n, memKept_of_eq (mem_operandRead s src w), rfl⟩

/-- The test for zero of all 16 bits, as arithmetic. -/
theorem beq_zero_eq (v : Word) : (v == 0) = decide (v.toNat = 0) := by
  rw [beq_eq_decide, decide_eq_decide, ← BitVec.toNat_inj]; rfl

/-! ### Comparisons (R174) -/

/-- `Cmp` writes N, Z and C only. -/
theorem flagOf_cmp_other (w : Width) (a b : Word) (p : Byte) {f : Flag} (h : f ∉ [Flag.n, .z, .c]) :
    flagOf (cmp w a b p) f = flagOf p f := by
  simp only [List.mem_cons, List.not_mem_nil, or_false, not_or] at h
  obtain ⟨hn, hz, hc⟩ := h
  simp [hn, hz, hc]

/-- The N of a comparison is the sign of the difference modulo 2^w. -/
theorem sign_sub_eq (w : Width) (a b : Word) (hb : b.toNat < 2 ^ w.bits) :
    (w.trunc (a - b)).getLsbD (w.bits - 1) =
      decide (2 ^ (w.bits - 1) ≤ (a.toNat + 2 ^ w.bits - b.toNat) % 2 ^ w.bits) := by
  have hsub : (a - b).toNat % 2 ^ w.bits = (a.toNat + 2 ^ w.bits - b.toNat) % 2 ^ w.bits := by
    have := b.isLt
    rw [BitVec.toNat_sub]
    cases w <;> simp only [Width.bits] at hb ⊢ <;> omega
  rw [sign_eq, trunc_toNat, Nat.mod_mod, hsub]

/-- A comparison of the register `v`, read at the width `w`, with an operand. -/
theorem compare_effect (s : State) (src : Operand) (w : Width) (v : Word) (n : Nat) :
    let f := s.operandRead src w
    let t := { f.st with p := cmp w (w.trunc v) f.val s.p }.charge n
    let a := v.toNat % 2 ^ w.bits
    let b := f.val.toNat
    t.flag .c = decide (b ≤ a) ∧ t.flag .z = decide (a = b) ∧
      t.flag .n = decide (2 ^ (w.bits - 1) ≤ (a + 2 ^ w.bits - b) % 2 ^ w.bits) ∧
      Keeps [] [.n, .z, .c] s t ∧ MemKeptBut [] s t ∧ t.trace = f.st.trace := by
  intro f t a b
  have hflag : ∀ g, t.flag g = flagOf (cmp w (w.trunc v) f.val s.p) g := fun _ => rfl
  have ha : (w.trunc v).toNat = a := trunc_toNat w v
  have hsign := sign_sub_eq w (w.trunc v) f.val (operandRead_lt s src w)
  refine ⟨?_, ?_, ?_, operand_withP_effect s src w (fun g hg => flagOf_cmp_other w _ _ s.p hg) n⟩
  · rw [hflag, flagOf_cmp, ← ha]; rfl
  · rw [hflag, flagOf_cmp, ← ha, decide_eq_decide.2 BitVec.toNat_inj, ← beq_eq_decide]; rfl
  · rw [hflag, flagOf_cmp, ← ha, ← hsign]; rfl

theorem exec_cmpForm {src : Operand} {i : Instr} (h : cmpForm src = some i) (s : State) :
    ∃ base mods, exec i s = .next (compareA src base mods s) := by
  rcases src with k | m
  · cases h; exact ⟨_, _, rfl⟩
  · cases m <;> cases h <;> exact ⟨_, _, rfl⟩

theorem exec_cpxForm {src : Operand} {i : Instr} (h : cpxForm src = some i) (s : State) :
    ∃ base mods, exec i s = .next (compareX src base mods s) := by
  rcases src with k | m
  · cases h; exact ⟨_, _, rfl⟩
  · cases m <;> cases h <;> exact ⟨_, _, rfl⟩

theorem exec_cpyForm {src : Operand} {i : Instr} (h : cpyForm src = some i) (s : State) :
    ∃ base mods, exec i s = .next (compareY src base mods s) := by
  rcases src with k | m
  · cases h; exact ⟨_, _, rfl⟩
  · cases m <;> cases h <;> exact ⟨_, _, rfl⟩

/-- Settles O44: each register is read at its width, and the rest is the same comparison. -/
theorem compareSetsFlagsOnly : Obligations.CompareSetsFlagsOnly := by
  intro s src i compares
  refine ⟨fun hform => ?_, fun hform => ?_, fun hform => ?_⟩
  · obtain ⟨base, mods, hexec⟩ := exec_cmpForm hform s
    rw [compareA, readA_eq_trunc] at hexec
    exact ⟨_, hexec, compare_effect s src s.wA s.c _⟩
  · obtain ⟨base, mods, hexec⟩ := exec_cpxForm hform s
    rw [compareX, readX_eq_trunc] at hexec
    exact ⟨_, hexec, compare_effect s src s.wX s.x _⟩
  · obtain ⟨base, mods, hexec⟩ := exec_cpyForm hform s
    rw [compareY, readY_eq_trunc] at hexec
    exact ⟨_, hexec, compare_effect s src s.wX s.y _⟩

/-! ### BIT (R179) -/

theorem flagOf_testZ_other (a m : Word) (p : Byte) {f : Flag} (h : f ∉ [Flag.z]) :
    flagOf (testZ a m p) f = flagOf p f := by
  rw [flagOf_testZ, if_neg (by simpa using h)]

/-- The memory modes of BIT write N, V and Z only. -/
theorem flagOf_testNV_testZ_other (w : Width) (a m : Word) (p : Byte) {f : Flag} (h : f ∉ [Flag.n, .v, .z]) :
    flagOf (testNV w m (testZ a m p)) f = flagOf p f := by
  simp only [List.mem_cons, List.not_mem_nil, or_false, not_or] at h
  obtain ⟨hn, hv, hz⟩ := h
  simp [hn, hv, hz]

/-- One bit of a word, as arithmetic. -/
theorem getLsbD_eq (v : Word) (k : Nat) : v.getLsbD k = decide (v.toNat / 2 ^ k % 2 = 1) :=
  Nat.testBit_eq_decide_div_mod_eq

theorem exec_bitForm {m : DataMode} {i : Instr} (h : bitForm m = some i) (s : State) :
    ∃ base mods, exec i s = .next (bitMem m base mods s) := by
  cases m <;> cases h <;> exact ⟨_, _, rfl⟩

/-- Settles O45: the memory modes and the immediate share Z; only the former write N and V. -/
theorem bitTestsOperand : Obligations.BitTestsOperand := by
  intro s zero top
  constructor
  · intro m i hform f
    obtain ⟨base, mods, hexec⟩ := exec_bitForm hform s
    refine ⟨_, hexec, ?_, ?_, ?_, operand_withP_effect s (.mem m) s.wA
      (fun g hg => flagOf_testNV_testZ_other s.wA s.readA f.val s.p hg) _⟩
    · exact ((flagOf_testNV _ _ _ .z).trans (flagOf_testZ _ _ _ .z)).trans (beq_zero_eq _)
    · exact (flagOf_testNV _ _ _ .n).trans (getLsbD_eq f.val _)
    · exact (flagOf_testNV _ _ _ .v).trans (getLsbD_eq f.val _)
  · intro k
    refine ⟨_, rfl, ?_, operand_withP_effect s (.imm k) s.wA
      (fun g hg => flagOf_testZ_other s.readA _ s.p hg) _⟩
    exact (flagOf_testZ _ _ _ .z).trans (beq_zero_eq _)

end Sys2Proof.Proofs
end

section
/-! PROOFS. The family 41_alu.md: the instructions that change memory in place (R176 to R178, R180, R260). -/

namespace Sys2Proof.Proofs

open Sys2Proof.Machine Sys2Proof.Safety

/-! ### Read, then write at the same addresses (R260) -/

/-- What a read-modify-write does, for an operation that writes the flags `fs`: the pointer's reads, the operand's
reads, then the writes of the new value at the addresses read. -/
theorem modifyMem_effect {op : Width → Word → Byte → Word × Byte} {fs : List Flag}
    (hop : ∀ w v p f, f ∉ fs → flagOf (op w v p).2 f = flagOf p f) (s : State) (m : DataMode) (base : Nat)
    (mods : List CycleMod) :
    let r := s.ea m
    let addrs := byteAddrs r.seq r.addr (s.wA.bits / 8)
    let o := op s.wA (r.st.readW r.seq r.addr s.wA).1 s.p
    let t := modifyMem op m base mods s
    Stores addrs (valueBytes o.1 s.wA) (r.st.trace.drop s.trace.length ++ readEvents r.st addrs) s t ∧
      (∀ f, t.flag f = flagOf o.2 f) ∧ Keeps [] fs s t := by
  intro r addrs o t
  have hread : (r.st.readW r.seq r.addr s.wA).2 = afterReads r.st addrs := (readW_eq r.st r.seq r.addr s.wA).2
  have hst : r.st = { s with trace := r.st.trace } := ea_st s m
  have ht : t = { afterWrites (afterReads r.st addrs) addrs (valueBytes o.1 s.wA) with p := o.2 }.charge
      (s.cost base mods .none) := by
    rw [← writeW_eq, ← hread]; rfl
  refine ⟨stores_of_replay (byteAddrs_nodup _ _ _) ?_ ?_, ?_, ?_⟩
  · rw [ht, hst]; rfl
  · rw [ht, ← List.append_assoc, ← trace_ea]; rfl
  · rw [ht]; exact fun _ => rfl
  · rw [ht, hst]
    exact ⟨fun q _ => by cases q <;> rfl, fun f hf => hop _ _ _ f hf, rfl, rfl⟩

/-- The value read, as the statements name it. -/
theorem ofNat_littleEndian_readW (s : State) (q : Seq) (a : Addr) (w : Width) :
    BitVec.ofNat 16 (littleEndian (answers s (byteAddrs q a (w.bits / 8)))) = (s.readW q a w).1 := by
  rw [← (readW_eq s q a w).1, BitVec.ofNat_toNat, BitVec.setWidth_eq]

/-! ### Shifts and rotates (R261 to R264) -/

/-- The operation of R260 that each shift and rotate is. -/
def shiftOp (kind : ShiftKind) (w : Width) (v : Word) (p : Byte) : Word × Byte :=
  ((shiftOut w v (flagOf p .c) kind).result, shiftFlags w (shiftOut w v (flagOf p .c) kind) p)

theorem exec_shiftForm {kind : ShiftKind} {m : DataMode} {i : Instr} (h : shiftForm kind m = some i) (s : State) :
    ∃ base mods, exec i s = .next (modifyMem (shiftOp kind) m base mods s) := by
  cases kind
  all_goals cases m <;> cases h <;> exact ⟨_, _, rfl⟩

/-- Settles O46: the primitives as arithmetic, on the value read. -/
theorem shiftsModifyMemory : Obligations.ShiftsModifyMemory := by
  intro kind s m i hform r addrs v v'
  have hval : (r.st.readW r.seq r.addr s.wA).1.toNat = v := (readW_eq r.st r.seq r.addr s.wA).1
  have hlt := readW_lt r.st r.seq r.addr s.wA
  have hv' : (shiftOut s.wA (r.st.readW r.seq r.addr s.wA).1 (s.flag .c) kind).result = v' := by
    rw [shiftOut_result hlt, hval]
  have hc : (shiftOut s.wA (r.st.readW r.seq r.addr s.wA).1 (s.flag .c) kind).c = shiftedOut s.wA.bits v kind := by
    rw [shiftOut_c hlt, hval]
  obtain ⟨base, mods, hexec⟩ := exec_shiftForm hform s
  obtain ⟨hstores, hflag, hkeeps⟩ := modifyMem_effect (op := shiftOp kind)
    (fun w _ p _ hf => flagOf_shiftFlags_other w _ p hf) s m base mods
  refine ⟨_, hexec, hv' ▸ hstores, ?_, ?_, hkeeps⟩
  · exact ((hflag .c).trans (flagOf_shiftFlags _ _ _ .c)).trans hc
  · rw [← hv']
    exact nz_of_flags ((hflag .n).trans (flagOf_shiftFlags _ _ _ .n))
      ((hflag .z).trans (flagOf_shiftFlags _ _ _ .z)) rfl

/-! ### Counters (R265, R266) -/

/-- The operation of R260 that each counter is. -/
def countOp (up : Bool) : Width → Word → Byte → Word × Byte := if up then incOp else decOp

theorem countOp_eq (up : Bool) (w : Width) (v : Word) (p : Byte) :
    let v' := BitVec.ofNat 16 (counted w.bits v.toNat up)
    countOp up w v p = (v', setNZ v' w p) := by
  cases up
  · simp only [countOp, ← dec_eq_counted]; rfl
  · simp only [countOp, ← inc_eq_counted]; rfl

theorem exec_incForm {m : DataMode} {i : Instr} (h : incForm m = some i) (s : State) :
    ∃ base mods, exec i s = .next (modifyMem (countOp true) m base mods s) := by
  cases m <;> cases h <;> exact ⟨_, _, rfl⟩

theorem exec_decForm {m : DataMode} {i : Instr} (h : decForm m = some i) (s : State) :
    ∃ base mods, exec i s = .next (modifyMem (countOp false) m base mods s) := by
  cases m <;> cases h <;> exact ⟨_, _, rfl⟩

/-- INC and DEC at once: the counted value, with its N and Z. -/
theorem countMem_effect (up : Bool) (s : State) (m : DataMode) (base : Nat) (mods : List CycleMod) :
    let r := s.ea m
    let addrs := byteAddrs r.seq r.addr (s.wA.bits / 8)
    let v' := BitVec.ofNat 16 (counted s.wA.bits (littleEndian (answers r.st addrs)) up)
    let t := modifyMem (countOp up) m base mods s
    Stores addrs (valueBytes v' s.wA) (r.st.trace.drop s.trace.length ++ readEvents r.st addrs) s t ∧
      NZ t v' s.wA ∧ Keeps [] [.n, .z] s t := by
  intro r addrs v' t
  obtain ⟨hstores, hflag, hkeeps⟩ := modifyMem_effect (op := countOp up)
    (fun w v p f hf => by rw [countOp_eq]; exact flagOf_setNZ_other _ w p hf) s m base mods
  rw [countOp_eq, (readW_eq _ _ _ _).1] at hstores hflag
  exact ⟨hstores, nz_of_flags ((hflag .n).trans (flagOf_setNZ _ _ _ .n)) ((hflag .z).trans (flagOf_setNZ _ _ _ .z)) rfl,
    hkeeps⟩

/-! ### The mask of a width (R11) -/

/-- The mask of a width cuts a value to it. -/
theorem and_mask (w : Width) (v : Word) : v &&& w.mask = w.trunc v := by
  apply BitVec.eq_of_toNat_eq
  have := v.isLt
  rw [trunc_toNat, BitVec.toNat_and]
  cases w
  · exact Nat.and_two_pow_sub_one_eq_mod v.toNat 8
  · exact Nat.and_two_pow_sub_one_eq_mod v.toNat 16

/-! ### TSB and TRB (R267, R268) -/

theorem exec_tsbForm {m : DataMode} {i : Instr} (h : tsbForm m = some i) (s : State) :
    ∃ base mods, exec i s = .next (modifyMem (tsbOp s.readA) m base mods s) := by
  cases m <;> cases h <;> exact ⟨_, _, rfl⟩

theorem exec_trbForm {m : DataMode} {i : Instr} (h : trbForm m = some i) (s : State) :
    ∃ base mods, exec i s = .next (modifyMem (trbOp s.readA) m base mods s) := by
  cases m <;> cases h <;> exact ⟨_, _, rfl⟩

/-- An operation whose only flag is the Z of a test: TSB and TRB, by the value they store. -/
theorem testMem_effect {op : Width → Word → Byte → Word × Byte} (s : State)
    (hop : ∀ w v p, (op w v p).2 = testZ s.readA v p) (m : DataMode) (base : Nat) (mods : List CycleMod) :
    let r := s.ea m
    let addrs := byteAddrs r.seq r.addr (s.wA.bits / 8)
    let v := BitVec.ofNat 16 (littleEndian (answers r.st addrs))
    let t := modifyMem op m base mods s
    Stores addrs (valueBytes (op s.wA v s.p).1 s.wA) (r.st.trace.drop s.trace.length ++ readEvents r.st addrs) s t ∧
      t.flag .z = decide ((getA s &&& v).toNat = 0) ∧ Keeps [] [.z] s t := by
  intro r addrs v t
  obtain ⟨hstores, hflag, hkeeps⟩ := modifyMem_effect (op := op)
    (fun w v p f hf => by rw [hop]; exact flagOf_testZ_other _ _ p hf) s m base mods
  rw [← ofNat_littleEndian_readW] at hstores hflag
  have hz := hflag .z
  rw [hop, flagOf_testZ, if_pos rfl, beq_zero_eq] at hz
  exact ⟨hstores, hz, hkeeps⟩

/-- Settles O47: TRB clears inside the width, which leaves the bytes it stores as they are. -/
theorem countersAndBitsModifyMemory : Obligations.CountersAndBitsModifyMemory := by
  intro s m i r addrs v stores counts tests
  refine ⟨fun hform => ?_, fun hform => ?_, fun hform => ?_, fun hform => ?_⟩
  · obtain ⟨base, mods, hexec⟩ := exec_incForm hform s
    exact ⟨_, hexec, countMem_effect true s m base mods⟩
  · obtain ⟨base, mods, hexec⟩ := exec_decForm hform s
    exact ⟨_, hexec, countMem_effect false s m base mods⟩
  · obtain ⟨base, mods, hexec⟩ := exec_tsbForm hform s
    exact ⟨_, hexec, testMem_effect (op := tsbOp s.readA) s (fun _ _ _ => rfl) m base mods⟩
  · obtain ⟨base, mods, hexec⟩ := exec_trbForm hform s
    have heffect := testMem_effect (op := trbOp s.readA) s (fun _ _ _ => rfl) m base mods
    simp only [trbOp, and_mask, valueBytes_trunc] at heffect
    exact ⟨_, hexec, heffect⟩

end Sys2Proof.Proofs
end

section
/-! PROOFS. The family 41_alu.md: what the signs and the flags of the adders are, and binary arithmetic (R171 to
R173, R181). -/

namespace Sys2Proof.Proofs

open Sys2Proof.Machine Sys2Proof.Safety

/-! ### Signs -/

/-- The sign mask tests the sign bit (R11). -/
theorem and_sign_bne_zero (w : Width) (v : Word) : (v &&& w.sign != 0) = v.getLsbD (w.bits - 1) := by
  have hmask : w.sign = BitVec.twoPow 16 (w.bits - 1) := by cases w <;> rfl
  have hpow : BitVec.twoPow 16 (w.bits - 1) ≠ 0 := by cases w <;> decide
  rw [hmask, BitVec.and_twoPow]
  cases v.getLsbD (w.bits - 1)
  · rfl
  · exact bne_iff_ne.2 hpow

theorem sign_index_lt (w : Width) : w.bits - 1 < 16 := by cases w <;> decide

/-- An addition overflows where the operands share a sign that the result does not have (R172). -/
theorem addOverflow_eq (w : Width) (a b r : Word) :
    addOverflow w a b r = (a.getLsbD (w.bits - 1) == b.getLsbD (w.bits - 1) &&
      a.getLsbD (w.bits - 1) != r.getLsbD (w.bits - 1)) := by
  rw [addOverflow, and_sign_bne_zero]
  simp only [BitVec.getLsbD_and, BitVec.getLsbD_not, BitVec.getLsbD_xor, sign_index_lt, decide_true, Bool.true_and]
  cases a.getLsbD (w.bits - 1) <;> cases b.getLsbD (w.bits - 1) <;> rfl

/-- A subtraction overflows where the operands differ in sign and the result has not that of the first (R173). -/
theorem subOverflow_eq (w : Width) (a b r : Word) :
    subOverflow w a b r = (a.getLsbD (w.bits - 1) != b.getLsbD (w.bits - 1) &&
      a.getLsbD (w.bits - 1) != r.getLsbD (w.bits - 1)) := by
  rw [subOverflow, and_sign_bne_zero]
  simp only [BitVec.getLsbD_and, BitVec.getLsbD_xor]

/-- The sign bit of a value of the width, as arithmetic. -/
theorem sign_of_lt {w : Width} {v : Word} (h : v.toNat < 2 ^ w.bits) :
    v.getLsbD (w.bits - 1) = decide (2 ^ (w.bits - 1) ≤ v.toNat) := by
  rw [sign_eq, Nat.mod_eq_of_lt h]

/-! ### Flags -/

/-- Z and N of the result of an addition or subtraction, as arithmetic (R15). -/
theorem addFlags_zn {w : Width} {o : AluOut} (h : o.result.toNat < 2 ^ w.bits) (p : Byte) :
    flagOf (addFlags w o p) .z = decide (o.result.toNat = 0) ∧
      flagOf (addFlags w o p) .n = decide (2 ^ (w.bits - 1) ≤ o.result.toNat) := by
  constructor
  · rw [flagOf_addFlags, if_neg (by decide), if_pos rfl, zero_eq, Nat.mod_eq_of_lt h]
  · rw [flagOf_addFlags, if_pos rfl, sign_of_lt h]

theorem low_nibble_toNat (v : Word) : (v &&& 0xF).toNat = v.toNat % 16 :=
  (BitVec.toNat_and v 0xF).trans (Nat.and_two_pow_sub_one_eq_mod v.toNat 4)

/-! ### Binary addition (R172) -/

theorem addBin_result_toNat (w : Width) (a b : Word) (c : Bool) :
    (addBin w a b c).result.toNat = (a.toNat + b.toNat + c.toNat) % 2 ^ w.bits := by
  simp only [addBin, trunc_toNat, BitVec.toNat_ofNat]
  cases w <;> simp only [Width.bits] <;> omega

theorem addBin_c (w : Width) (a b : Word) (c : Bool) :
    (addBin w a b c).c = decide (2 ^ w.bits ≤ a.toNat + b.toNat + c.toNat) := by
  have hmask : w.mask.toNat + 1 = 2 ^ w.bits := by cases w <;> rfl
  exact decide_eq_decide.2 (by rw [← hmask]; rfl)

/-- The signs disagree as R172 says exactly where the exact sum leaves the two's-complement range. -/
theorem addBin_v {w : Width} {a b : Word} (ha : a.toNat < 2 ^ w.bits) (hb : b.toNat < 2 ^ w.bits) (c : Bool) :
    let exact := signed w a + signed w b + c.toNat
    (addBin w a b c).v = decide (exact < -2 ^ (w.bits - 1) ∨ 2 ^ (w.bits - 1) ≤ exact) := by
  intro exact
  have hc := c.toNat_lt
  have hr : (addBin w a b c).v = addOverflow w a b (addBin w a b c).result := rfl
  rw [hr, addOverflow_eq, sign_of_lt ha, sign_of_lt hb, sign_of_lt (addBin_result_lt w a b c), addBin_result_toNat,
    Bool.eq_iff_iff, decide_eq_true_iff]
  simp only [exact, signed, Bool.and_eq_true, beq_iff_eq, bne_iff_ne, ne_eq, decide_eq_decide]
  cases w <;> simp only [Width.bits] at ha hb ⊢ <;> omega

/-- Settles O30, output by output. -/
theorem binaryAddition : Obligations.BinaryAddition := by
  intro w a b c ha hb o exact
  refine ⟨addBin_result_toNat w a b c, addBin_c w a b c, addBin_v ha hb c, addFlags_zn (addBin_result_lt w a b c), ?_⟩
  show decide _ = decide _
  rw [low_nibble_toNat, low_nibble_toNat]

/-! ### Binary subtraction (R173) -/

theorem subBin_result_toNat {w : Width} {a b : Word} (hb : b.toNat < 2 ^ w.bits) (c : Bool) :
    (subBin w a b c).result.toNat = (a.toNat + 2 ^ w.bits - b.toNat - (1 - c.toNat)) % 2 ^ w.bits := by
  have hc := c.toNat_lt
  simp only [subBin, trunc_toNat, BitVec.toNat_ofInt]
  cases w <;> simp only [Width.bits] at hb ⊢ <;> omega

theorem subBin_c (w : Width) (a b : Word) (c : Bool) :
    (subBin w a b c).c = decide (b.toNat + (1 - c.toNat) ≤ a.toNat) := by
  have hc := c.toNat_lt
  exact decide_eq_decide.2 (by omega)

/-- The signs disagree as R173 says exactly where the exact difference leaves the two's-complement range. -/
theorem subBin_v {w : Width} {a b : Word} (ha : a.toNat < 2 ^ w.bits) (hb : b.toNat < 2 ^ w.bits) (c : Bool) :
    let exact := signed w a - signed w b - (1 - c.toNat)
    (subBin w a b c).v = decide (exact < -2 ^ (w.bits - 1) ∨ 2 ^ (w.bits - 1) ≤ exact) := by
  intro exact
  have hc := c.toNat_lt
  have hr : (subBin w a b c).v = subOverflow w a b (subBin w a b c).result := rfl
  rw [hr, subOverflow_eq, sign_of_lt ha, sign_of_lt hb, sign_of_lt (subBin_result_lt w a b c),
    subBin_result_toNat hb, Bool.eq_iff_iff, decide_eq_true_iff]
  simp only [exact, signed, Bool.and_eq_true, bne_iff_ne, ne_eq, decide_eq_decide]
  cases w <;> simp only [Width.bits] at ha hb ⊢ <;> omega

/-- The complement at a width counts down from the largest value (R173). -/
theorem complement_toNat {w : Width} {b : Word} (hb : b.toNat < 2 ^ w.bits) :
    (~~~b &&& w.mask).toNat = 2 ^ w.bits - 1 - b.toNat := by
  rw [and_mask, trunc_toNat, BitVec.toNat_not]
  cases w <;> simp only [Width.bits] at hb ⊢ <;> omega

/-- The complement has the other sign. -/
theorem complement_sign (w : Width) (b : Word) :
    (~~~b &&& w.mask).getLsbD (w.bits - 1) = !b.getLsbD (w.bits - 1) := by
  have hmask : w.mask.getLsbD (w.bits - 1) = true := by cases w <;> rfl
  rw [BitVec.getLsbD_and, BitVec.getLsbD_not, hmask, decide_eq_true (sign_index_lt w), Bool.true_and, Bool.and_true]

/-- A subtraction is the addition of the complement, in its result, carry and overflow (R173). -/
theorem subBin_eq_addBin_complement {w : Width} (a : Word) {b : Word} (hb : b.toNat < 2 ^ w.bits) (c : Bool) :
    let o := subBin w a b c
    let o' := addBin w a (~~~b &&& w.mask) c
    o.result = o'.result ∧ o.c = o'.c ∧ o.v = o'.v := by
  intro o o'
  have hc := c.toNat_lt
  have hresult : o.result = o'.result := by
    apply BitVec.eq_of_toNat_eq
    rw [subBin_result_toNat hb, addBin_result_toNat, complement_toNat hb]
    congr 1
    omega
  refine ⟨hresult, ?_, ?_⟩
  · rw [subBin_c, addBin_c, complement_toNat hb]
    exact decide_eq_decide.2 (by omega)
  · show subOverflow w a b o.result = addOverflow w a (~~~b &&& w.mask) o'.result
    rw [subOverflow_eq, addOverflow_eq, complement_sign, hresult]
    cases a.getLsbD (w.bits - 1) <;> cases b.getLsbD (w.bits - 1) <;> rfl

/-- Settles O31, output by output, then the addition of the complement. -/
theorem binarySubtraction : Obligations.BinarySubtraction := by
  intro w a b c ha hb o o' exact
  refine ⟨subBin_result_toNat hb c, subBin_c w a b c, subBin_v ha hb c, addFlags_zn (subBin_result_lt w a b c), ?_,
    subBin_eq_addBin_complement a hb c⟩
  show decide _ = decide _
  rw [low_nibble_toNat, low_nibble_toNat]

end Sys2Proof.Proofs
end

section
/-! PROOFS. The family 41_alu.md: numbers by their digits, and the loops of decimal arithmetic (R182, R183). -/

namespace Sys2Proof.Proofs

open Sys2Proof.Machine Sys2Proof.Safety

/-! ### Numbers by their digits -/

/-- The number whose lowest `n` digits to a base are given: `ofDigits` to base 16, `bcdValue` to base 10. -/
def digitSum (base n : Nat) (digit : Nat → Nat) : Nat := ((List.range n).map fun i => digit i * base ^ i).sum

theorem ofDigits_eq (n : Nat) (digit : Nat → Nat) : ofDigits n digit = digitSum 16 n digit := rfl

theorem bcdValue_eq (n : Nat) (v : Word) : bcdValue n v = digitSum 10 n (nibble v) := rfl

@[simp] theorem digitSum_zero (base : Nat) (digit : Nat → Nat) : digitSum base 0 digit = 0 := rfl

theorem digitSum_succ (base n : Nat) (digit : Nat → Nat) :
    digitSum base (n + 1) digit = digitSum base n digit + digit n * base ^ n := by
  simp [digitSum, List.range_succ]

theorem digitSum_congr {base n : Nat} {digit digit' : Nat → Nat} (h : ∀ i < n, digit i = digit' i) :
    digitSum base n digit = digitSum base n digit' := by
  unfold digitSum
  congr 1
  exact List.map_congr_left fun i hi => by rw [h i (List.mem_range.1 hi)]

theorem digitSum_lt {base n : Nat} {digit : Nat → Nat} (h : ∀ i < n, digit i < base) :
    digitSum base n digit < base ^ n := by
  induction n with
  | zero => exact Nat.one_pos
  | succ n ih =>
    have hlow := ih fun i hi => h i (Nat.lt_succ_of_lt hi)
    have htop : (digit n + 1) * base ^ n ≤ base * base ^ n := Nat.mul_le_mul_right _ (h n n.lt_succ_self)
    rw [digitSum_succ, Nat.pow_succ']
    rw [Nat.add_mul, Nat.one_mul] at htop
    omega

/-- A digit is found again at its place. -/
theorem digitSum_digit {base n i : Nat} {digit : Nat → Nat} (h : ∀ i < n, digit i < base) (hi : i < n) :
    digitSum base n digit / base ^ i % base = digit i := by
  have hbase : 0 < base := Nat.zero_lt_of_lt (h i hi)
  have hpos : 0 < base ^ i := Nat.pow_pos hbase
  induction n with
  | zero => omega
  | succ n ih =>
    have hbelow : ∀ j < n, digit j < base := fun j hj => h j (Nat.lt_succ_of_lt hj)
    rw [digitSum_succ]
    obtain hlt | rfl := Nat.lt_succ_iff_lt_or_eq.1 hi
    · obtain ⟨k, rfl⟩ := Nat.exists_eq_add_of_lt hlt
      have hhigh : digit (i + k + 1) * base ^ (i + k + 1) = base ^ i * (base * (digit (i + k + 1) * base ^ k)) := by
        ring
      rw [hhigh, Nat.add_mul_div_left _ _ hpos, Nat.add_mul_mod_self_left]
      exact ih hbelow hlt
    · rw [Nat.mul_comm, Nat.add_mul_div_left _ _ hpos, Nat.div_eq_of_lt (digitSum_lt hbelow), Nat.zero_add,
        Nat.mod_eq_of_lt (h i hi)]

/-- A word given by digits up to 9 is a decimal number, of those digits. -/
theorem bcd_of_digits {n : Nat} {v : Word} {digit : Nat → Nat} (hv : v.toNat = ofDigits n digit)
    (hd : ∀ i < n, digit i ≤ 9) : isBcd n v ∧ bcdValue n v = digitSum 10 n digit := by
  have hd16 : ∀ i < n, digit i < 16 := fun i hi => Nat.lt_of_le_of_lt (hd i hi) (by decide)
  have hnibble : ∀ i < n, nibble v i = digit i := fun i hi => by
    rw [nibble, hv]; exact digitSum_digit hd16 hi
  refine ⟨⟨?_, fun i hi => ?_⟩, digitSum_congr hnibble⟩
  · rw [hv]; exact digitSum_lt hd16
  · rw [hnibble i hi]; exact hd i hi

/-- The sign that the top digit gives: its bit 3. -/
def negative (digit : Nat) : Bool := decide (8 ≤ digit)

/-- The sign bit of a word is that of its top digit at the width. -/
theorem sign_eq_nibble (w : Width) (v : Word) : v.getLsbD (w.bits - 1) = negative (nibble v (w.bits / 4 - 1)) := by
  rw [sign_eq, negative, decide_eq_decide, nibble]
  cases w <;> simp only [Width.bits] <;> omega

/-! ### The loop over the nibbles -/

/-- A round whose sum, adjusted, is `x` at its place puts the digit `x mod 16` above the digits below. -/
theorem lowDigits_succ {o acc : DecimalAcc} {i digit : Nat} {x : Int} (hr : o.r = x * 2 ^ (4 * i) + lowDigits acc i)
    (hx : x % 16 = digit) : lowDigits o (i + 1) = lowDigits acc i + digit * 16 ^ i := by
  have hlow := lowDigits_lt acc i
  have hplace : (2 : Nat) ^ (4 * i) = 16 ^ i := by rw [Nat.pow_mul]
  have hplace' : (2 : Int) ^ (4 * i) = ((16 ^ i : Nat) : Int) := by rw [← hplace]; push_cast; rfl
  have hnext : (2 : Int) ^ (4 * (i + 1)) = 16 * ((16 ^ i : Nat) : Int) := by rw [Nat.mul_succ, pow_add, hplace']; ring
  have hdigit : digit + 1 ≤ 16 := by omega
  have hfits : (digit + 1) * 16 ^ i ≤ 16 * 16 ^ i := Nat.mul_le_mul_right _ hdigit
  have hsplit : o.r = ((lowDigits acc i + digit * 16 ^ i : Nat) : Int) + 16 * ((16 ^ i : Nat) : Int) * (x / 16) := by
    have hdiv : x = digit + 16 * (x / 16) := by omega
    rw [hr, hplace']
    conv_lhs => rw [hdiv]
    push_cast; ring
  rw [hplace] at hlow
  rw [Nat.add_mul, Nat.one_mul] at hfits
  rw [lowDigits, hnext, hsplit, Int.add_mul_emod_self_left, Int.emod_eq_of_lt (by omega) (by omega), Int.toNat_natCast]

/-- The top round takes V from the digit sum before its adjustment (R182, R183). -/
theorem decimalNibble_v (w : Width) (a b : Word) (adjust : Nat → Nat → Int) (acc : DecimalAcc) :
    let i := w.bits / 4 - 1
    (decimalNibble w a b adjust acc i).v = (negative (nibble a i) == negative (nibble b i) &&
      negative (nibble a i) != negative ((nibble a i + nibble b i + acc.k) % 16)) := by
  intro i
  have hlow := lowDigits_lt acc i
  have hsum : (a.toNat &&& 0xF <<< (4 * i)) + (b.toNat &&& 0xF <<< (4 * i)) + acc.k <<< (4 * i) +
      (acc.r % 2 ^ (4 * i)).toNat = (nibble a i + nibble b i + acc.k) * 2 ^ (4 * i) + lowDigits acc i := by
    rw [nibble_mask, nibble_mask, Nat.shiftLeft_eq, lowDigits]; ring
  have hv : (decimalNibble w a b adjust acc i).v =
      addOverflow w a b (BitVec.ofNat 16 ((nibble a i + nibble b i + acc.k) * 2 ^ (4 * i) + lowDigits acc i)) := by
    rw [← hsum]; exact if_pos rfl
  have htop : ∀ t, nibble (BitVec.ofNat 16 (t * 2 ^ (4 * i) + lowDigits acc i)) i = t % 16 := by
    intro t
    rw [nibble, BitVec.toNat_ofNat]
    cases w <;> simp only [i, Width.bits] at hlow ⊢ <;> omega
  rw [hv, addOverflow_eq, sign_eq_nibble, sign_eq_nibble, sign_eq_nibble, htop]

/-- What a round has to do for the digits and carries given: pass the carry on, and put its digit in place. -/
def RoundGives (w : Width) (a b : Word) (adjust : Nat → Nat → Int) (digit carry : Nat → Nat) (i : Nat) : Prop :=
  ∀ acc : DecimalAcc, acc.k = carry i →
    let o := decimalNibble w a b adjust acc i
    o.k = carry (i + 1) ∧ lowDigits o (i + 1) = lowDigits acc i + digit i * 16 ^ i

/-- After `m` rounds: the carry into digit `m`, and the digits below it. -/
theorem decimalRounds {w : Width} {a b : Word} {adjust : Nat → Nat → Int} {digit carry : Nat → Nat}
    {start : DecimalAcc} (h0 : start.k = carry 0) {m : Nat}
    (h : ∀ i < m, RoundGives w a b adjust digit carry i) :
    let acc := (List.range m).foldl (decimalNibble w a b adjust) start
    acc.k = carry m ∧ lowDigits acc m = ofDigits m digit := by
  induction m with
  | zero => exact ⟨h0, by simp [lowDigits, ofDigits_eq]⟩
  | succ m ih =>
    obtain ⟨hk, hlow⟩ := ih fun i hi => h i (Nat.lt_succ_of_lt hi)
    obtain ⟨hk', hlow'⟩ := h m m.lt_succ_self _ hk
    rw [List.range_succ, List.foldl_append]
    exact ⟨hk', by rw [ofDigits_eq, digitSum_succ, ← ofDigits_eq, ← hlow]; exact hlow'⟩

/-- The whole loop: its result by digits, its last carry, and V from the top digit. -/
theorem decimalLoop_gives {w : Width} {a b : Word} {c : Bool} {adjust : Nat → Nat → Int} {digit carry : Nat → Nat}
    (h0 : c.toNat = carry 0) (h : ∀ i < w.bits / 4, RoundGives w a b adjust digit carry i) :
    let n := w.bits / 4
    let acc := decimalLoop w a b c adjust
    (w.trunc (BitVec.ofInt 16 acc.r)).toNat = ofDigits n digit ∧ acc.k = carry n ∧
      acc.v = (negative (nibble a (n - 1)) == negative (nibble b (n - 1)) &&
        negative (nibble a (n - 1)) != negative ((nibble a (n - 1) + nibble b (n - 1) + carry (n - 1)) % 16)) := by
  intro n acc
  have hn : w.bits / 4 = w.bits / 4 - 1 + 1 := by cases w <;> rfl
  obtain ⟨hk, hlow⟩ := decimalRounds (start := { r := 0, k := c.toNat, v := false }) h0 h
  obtain ⟨hk', -⟩ := decimalRounds (start := { r := 0, k := c.toNat, v := false }) (m := n - 1) h0
    fun i hi => h i (by omega)
  have hlast : acc = decimalNibble w a b adjust
      ((List.range (n - 1)).foldl (decimalNibble w a b adjust) { r := 0, k := c.toNat, v := false }) (n - 1) := by
    simp only [acc, decimalLoop]
    rw [hn, List.range_succ, List.foldl_append]
    rfl
  refine ⟨?_, hk, ?_⟩
  · rw [← hlow, trunc_toNat, BitVec.toNat_ofInt]
    show _ = (acc.r % 2 ^ (4 * n)).toNat
    cases w <;> simp only [n, Width.bits] <;> omega
  · rw [hlast, ← hk']
    exact decimalNibble_v w a b adjust _

end Sys2Proof.Proofs
end

section
/-! PROOFS. The family 41_alu.md: decimal addition and subtraction (R182, R183). -/

namespace Sys2Proof.Proofs

open Sys2Proof.Machine Sys2Proof.Safety

/-! ### Addition (R182) -/

theorem addCarry_le (a b : Word) (c : Bool) (i : Nat) : addCarry a b c i ≤ 1 := by
  cases i with
  | zero => exact Nat.le_of_lt_succ c.toNat_lt
  | succ i => rw [addCarry]; split <;> omega

theorem addRound (w : Width) (a b : Word) (c : Bool) (i : Nat) :
    RoundGives w a b addAdjust (addDigit a b c) (addCarry a b c) i := by
  intro acc hk o
  obtain ⟨hr, hcarry⟩ := decimalNibble_addAdjust w a b acc i
  rw [hk] at hr hcarry
  refine ⟨hcarry, lowDigits_succ (hr.trans (by push_cast; rfl)) ?_⟩
  have := addCarry_le a b c i
  rw [addDigit]
  split <;> omega

/-- `AddDec` for every operand: digits, carry and overflow. -/
theorem addDec_digits (w : Width) (a b : Word) (c : Bool) :
    let n := w.bits / 4
    let o := addDec w a b c
    let top := nibble a (n - 1) + nibble b (n - 1) + addCarry a b c (n - 1)
    o.result.toNat = ofDigits n (addDigit a b c) ∧ o.c = decide (addCarry a b c n = 1) ∧
      o.v = (negative (nibble a (n - 1)) == negative (nibble b (n - 1)) &&
        negative (nibble a (n - 1)) != negative (top % 16)) := by
  intro n o top
  obtain ⟨hresult, hk, hv⟩ := decimalLoop_gives (w := w) (c := c) (carry := addCarry a b c) rfl
    fun i _ => addRound w a b c i
  refine ⟨hresult, ?_, hv⟩
  rw [← hk, ← beq_eq_decide]; rfl

/-- Of decimal digits, a digit and its carry are the digit sum. -/
theorem addDigit_carry {a b : Word} {i : Nat} (ha : nibble a i ≤ 9) (hb : nibble b i ≤ 9) (c : Bool) :
    addDigit a b c i ≤ 9 ∧
      nibble a i + nibble b i + addCarry a b c i = addDigit a b c i + 10 * addCarry a b c (i + 1) := by
  have := addCarry_le a b c i
  rw [addDigit, addCarry]
  split <;> omega

/-- The digits so far and the carry out of them are the sum so far. -/
theorem addDigits_sum {a b : Word} {n : Nat} (ha : ∀ i < n, nibble a i ≤ 9) (hb : ∀ i < n, nibble b i ≤ 9)
    (c : Bool) :
    bcdValue n a + bcdValue n b + c.toNat = digitSum 10 n (addDigit a b c) + addCarry a b c n * 10 ^ n := by
  induction n with
  | zero => simp [bcdValue_eq, addCarry]
  | succ n ih =>
    have hbelow := ih (fun i hi => ha i (Nat.lt_succ_of_lt hi)) fun i hi => hb i (Nat.lt_succ_of_lt hi)
    obtain ⟨-, hdigit⟩ := addDigit_carry (ha n n.lt_succ_self) (hb n n.lt_succ_self) c
    simp only [bcdValue_eq, digitSum_succ] at hbelow ⊢
    calc _ = (digitSum 10 n (nibble a) + digitSum 10 n (nibble b) + c.toNat) +
          (nibble a n + nibble b n) * 10 ^ n := by ring
      _ = digitSum 10 n (addDigit a b c) + (nibble a n + nibble b n + addCarry a b c n) * 10 ^ n := by
        rw [hbelow]; ring
      _ = _ := by rw [hdigit]; ring

/-- Settles O32: the loop for every operand, then its digits read as a decimal number. -/
theorem decimalAddition : Obligations.DecimalAddition := by
  intro w a b c n o top sign
  obtain ⟨hresult, hc, hv⟩ := addDec_digits w a b c
  refine ⟨⟨hresult, hc, hv, addFlags_zn (addDec_result_lt w a b c)⟩, ?_⟩
  rintro ⟨-, ha⟩ ⟨-, hb⟩ sum
  have hd : ∀ i < n, addDigit a b c i ≤ 9 := fun i hi => (addDigit_carry (ha i hi) (hb i hi) c).1
  have hsum : sum = digitSum 10 n (addDigit a b c) + addCarry a b c n * 10 ^ n := addDigits_sum ha hb c
  have hlt : digitSum 10 n (addDigit a b c) < 10 ^ n := digitSum_lt fun i hi => Nat.lt_succ_of_le (hd i hi)
  obtain ⟨hbcd, hvalue⟩ := bcd_of_digits hresult hd
  refine ⟨hbcd, ?_, ?_⟩
  · rw [hvalue, hsum, Nat.add_mul_mod_self_right, Nat.mod_eq_of_lt hlt]
  · rw [hc, decide_eq_decide, hsum]
    obtain h | h := Nat.le_one_iff_eq_zero_or_eq_one.1 (addCarry_le a b c n) <;> rw [h] <;> omega

/-! ### Subtraction (R183) -/

theorem subBorrow_le (a b : Word) (c : Bool) (i : Nat) : subBorrow a b c i ≤ 1 := by
  cases i with
  | zero => exact Nat.sub_le 1 c.toNat
  | succ i => rw [subBorrow]; split <;> omega

theorem nibble_lt (v : Word) (i : Nat) : nibble v i < 16 := Nat.mod_lt _ (by decide)

/-- A nibble of the complement counts down from 15. -/
theorem nibble_complement (w : Width) (b : Word) {i : Nat} (hi : i < w.bits / 4) :
    nibble (~~~b &&& w.mask) i = 15 - nibble b i := by
  have := b.isLt
  rw [and_mask, nibble, nibble, trunc_toNat, BitVec.toNat_not]
  cases w <;> simp only [Width.bits, Nat.reduceDiv] at hi ⊢ <;> interval_cases i <;> omega

/-- A round over the complement: it carries where the digit does not borrow. -/
theorem subRound (w : Width) (a b : Word) (c : Bool) {i : Nat} (hi : i < w.bits / 4) :
    RoundGives w a (~~~b &&& w.mask) subAdjust (subDigit a b c) (fun j => 1 - subBorrow a b c j) i := by
  intro acc hk o
  obtain ⟨hr, hcarry⟩ := decimalNibble_subAdjust w a (~~~b &&& w.mask) acc i
  rw [hk, nibble_complement w b hi] at hr hcarry
  have := subBorrow_le a b c i
  have := nibble_lt a i
  have := nibble_lt b i
  refine ⟨hcarry.trans ?_, lowDigits_succ hr ?_⟩
  · simp only [subBorrow]
    split <;> split <;> omega
  · rw [subDigit]
    dsimp only
    split <;> split <;> omega

/-- `SubDec` for every operand: digits, carry and overflow. -/
theorem subDec_digits (w : Width) (a b : Word) (c : Bool) :
    let n := w.bits / 4
    let o := subDec w a b c
    let top := nibble a (n - 1) + 16 - nibble b (n - 1) - subBorrow a b c (n - 1)
    o.result.toNat = ofDigits n (subDigit a b c) ∧ o.c = decide (subBorrow a b c n = 0) ∧
      o.v = (negative (nibble a (n - 1)) != negative (nibble b (n - 1)) &&
        negative (nibble a (n - 1)) != negative (top % 16)) := by
  intro n o top
  have hcin : c.toNat = 1 - (1 - c.toNat) := by cases c <;> rfl
  have htop : n - 1 < n := by cases w <;> decide
  obtain ⟨hresult, hk, hv⟩ := decimalLoop_gives (w := w) (c := c) (carry := fun j => 1 - subBorrow a b c j) hcin
    fun i hi => subRound w a b c hi
  have hb := nibble_lt b (n - 1)
  have hborrow := subBorrow_le a b c (n - 1)
  have hsum : nibble a (n - 1) + (15 - nibble b (n - 1)) + (1 - subBorrow a b c (n - 1)) = top := by omega
  have hsign : negative (15 - nibble b (n - 1)) = !negative (nibble b (n - 1)) := by
    rw [negative, negative, ← decide_not, decide_eq_decide]; omega
  rw [nibble_complement w b htop, hsum, hsign] at hv
  refine ⟨hresult, ?_, hv.trans (congrArg (· && _) ?_)⟩
  · show (_ == 1) = _
    rw [hk, beq_eq_decide, decide_eq_decide]
    have := subBorrow_le a b c n
    show 1 - subBorrow a b c n = 1 ↔ subBorrow a b c n = 0
    omega
  · cases negative (nibble a (n - 1)) <;> cases negative (nibble b (n - 1)) <;> rfl

/-- Of decimal digits, what is taken from a digit and the digit left are the digit and its borrow. -/
theorem subDigit_borrow {a b : Word} {i : Nat} (ha : nibble a i ≤ 9) (hb : nibble b i ≤ 9) (c : Bool) :
    subDigit a b c i ≤ 9 ∧
      nibble a i + 10 * subBorrow a b c (i + 1) = subDigit a b c i + (nibble b i + subBorrow a b c i) := by
  have := subBorrow_le a b c i
  rw [subDigit, subBorrow]
  split <;> omega

/-- The first number and the borrow out of the digits so far are the digits so far and what is taken. -/
theorem subDigits_sum {a b : Word} {n : Nat} (ha : ∀ i < n, nibble a i ≤ 9) (hb : ∀ i < n, nibble b i ≤ 9)
    (c : Bool) :
    bcdValue n a + subBorrow a b c n * 10 ^ n =
      digitSum 10 n (subDigit a b c) + (bcdValue n b + (1 - c.toNat)) := by
  induction n with
  | zero => simp [bcdValue_eq, subBorrow]
  | succ n ih =>
    have hbelow := ih (fun i hi => ha i (Nat.lt_succ_of_lt hi)) fun i hi => hb i (Nat.lt_succ_of_lt hi)
    obtain ⟨-, hdigit⟩ := subDigit_borrow (ha n n.lt_succ_self) (hb n n.lt_succ_self) c
    have hplace := congrArg (· * 10 ^ n) hdigit
    simp only [Nat.add_mul] at hplace
    simp only [bcdValue_eq, digitSum_succ, Nat.pow_succ'] at hbelow ⊢
    rw [← Nat.mul_assoc, Nat.mul_comm _ 10]
    omega

/-- Settles O33: the loop for every operand, then its digits read as a decimal number. -/
theorem decimalSubtraction : Obligations.DecimalSubtraction := by
  intro w a b c n o top sign
  obtain ⟨hresult, hc, hv⟩ := subDec_digits w a b c
  refine ⟨⟨hresult, hc, hv, addFlags_zn (subDec_result_lt w a b c)⟩, ?_⟩
  rintro ⟨-, ha⟩ ⟨-, hb⟩ taken
  have hd : ∀ i < n, subDigit a b c i ≤ 9 := fun i hi => (subDigit_borrow (ha i hi) (hb i hi) c).1
  have hsum : bcdValue n a + subBorrow a b c n * 10 ^ n = digitSum 10 n (subDigit a b c) + taken :=
    subDigits_sum ha hb c
  have hlt : digitSum 10 n (subDigit a b c) < 10 ^ n := digitSum_lt fun i hi => Nat.lt_succ_of_le (hd i hi)
  have hlt_a : bcdValue n a < 10 ^ n := digitSum_lt fun i hi => Nat.lt_succ_of_le (ha i hi)
  obtain ⟨hbcd, hvalue⟩ := bcd_of_digits hresult hd
  refine ⟨hbcd, ?_, ?_⟩
  · rw [hvalue]
    obtain h | h := Nat.le_one_iff_eq_zero_or_eq_one.1 (subBorrow_le a b c n) <;> rw [h] at hsum
    · rw [show bcdValue n a + 10 ^ n - taken = digitSum 10 n (subDigit a b c) + 10 ^ n by omega, Nat.add_mod_right,
        Nat.mod_eq_of_lt hlt]
    · rw [show bcdValue n a + 10 ^ n - taken = digitSum 10 n (subDigit a b c) by omega, Nat.mod_eq_of_lt hlt]
  · rw [hc, decide_eq_decide]
    obtain h | h := Nat.le_one_iff_eq_zero_or_eq_one.1 (subBorrow_le a b c n) <;> rw [h] at hsum ⊢ <;> omega

end Sys2Proof.Proofs
end

section
/-! PROOFS. The family 42_load_store_transfer.md: the transfers into the accumulator, S and D (R209, R210, R214 to
R219). -/

namespace Sys2Proof.Proofs

open Sys2Proof.Machine Sys2Proof.Safety

/-! ### One register written -/

theorem keeps_setC (s : State) (v : Word) : Keeps [.c] [] s { s with c := v } := by
  refine keeps_write (keeps_refl s) (fun r hr => ?_) (fun _ _ => rfl) rfl rfl
  cases r
  case c => exact absurd rfl hr
  all_goals rfl

theorem keeps_setD (s : State) (v : Word) : Keeps [.d] [] s { s with d := v } := by
  refine keeps_write (keeps_refl s) (fun r hr => ?_) (fun _ _ => rfl) rfl rfl
  cases r
  case d => exact absurd rfl hr
  all_goals rfl

theorem keeps_writeS_charge (s : State) (v : Word) (n : Nat) : Keeps [.sp] [] s ((s.writeS v).charge n) := by
  refine keeps_write (keeps_refl s) (fun r hr => ?_) (fun _ _ => rfl) rfl rfl
  cases r
  case sp => exact absurd rfl hr
  all_goals rfl

/-- N and Z written after a frame that leaves every flag; `v'` is what the meaning takes them from. -/
theorem putNZ_effect {rs : List Reg} {s u : State} (hu : Keeps rs [] s u) {v v' : Word} {w : Width}
    (hv : w.trunc v' = w.trunc v) (n : Nat) :
    let t := (u.putNZ v' w).charge n
    NZ t v w ∧ Keeps rs [.n, .z] s t := by
  have hflag := setNZ_keeps_flags hu v' w
  obtain ⟨hreg, -, hdiag, hparams⟩ := hu
  refine ⟨nz_of_setNZ rfl hv, fun r hr => Eq.trans ?_ (hreg r hr), hflag, hdiag, hparams⟩
  cases r <;> rfl

/-! ### Transfers into the accumulator -/

/-- An index register at its own width, as the statements write it. -/
theorem trunc_wX_eq (s : State) (v : Word) : s.wX.trunc v = if s.flag .x then v &&& 0x00FF else v := by
  unfold State.wX
  cases s.flag .x
  · rfl
  · exact (and_mask .w8 v).symm

/-- A transfer into the accumulator at its own width, with the N and Z of what it then reads (R209, R210). -/
theorem transferA_effect (s : State) (v : Word) (base : Nat) (mods : List CycleMod) :
    let t := transferA v base mods s
    WritesA s t v ∧ NZ t v s.wA ∧ Keeps [.c] [.n, .z] s t ∧ MemKeptBut [] s t ∧ t.trace = s.trace := by
  intro t
  have hread : s.wA.trunc (s.writeA v).readA = s.wA.trunc v := by rw [readA_writeA, trunc_trunc]
  obtain ⟨hw, hk⟩ := writeA_effect (keeps_refl s) List.not_mem_nil
    (setNZ_keeps_flags (keeps_refl s) (s.writeA v).readA s.wA) v (s.cost base mods .none)
  exact ⟨hw, nz_of_setNZ rfl hread, hk, memKept_of_eq rfl, rfl⟩

/-- All 16 bits of C written, whatever P.M holds, and then N and Z (R216, R218, R219). -/
theorem setC_effect (s : State) {c v v' : Word} {w : Width} (hv : w.trunc v' = w.trunc v) (n : Nat) :
    let t := ({ s with c := c }.putNZ v' w).charge n
    t.c = c ∧ NZ t v w ∧ Keeps [.c] [.n, .z] s t ∧ MemKeptBut [] s t ∧ t.trace = s.trace := by
  obtain ⟨hnz, hk⟩ := putNZ_effect (keeps_setC s c) hv n
  exact ⟨rfl, hnz, hk, memKept_of_eq rfl, rfl⟩

/-- Settles O39: TXA and TYA through the width of the accumulator, the others write all of C. -/
theorem transfersIntoAccumulator : Obligations.TransfersIntoAccumulator := by
  intro s quiet index
  have hx : s.readX = index s.x := (readX_eq_trunc s).trans (trunc_wX_eq s s.x)
  have hy : s.readY = index s.y := (readY_eq_trunc s).trans (trunc_wX_eq s s.y)
  have hlow : Width.w8.trunc (zext (hi s.c)) = Width.w8.trunc (word (lo s.c) (hi s.c)) := by simp [Width.trunc]
  obtain ⟨-, hnz, hquiet⟩ := setC_effect s hlow (s.cost 3 [] .none)
  exact ⟨⟨_, rfl, hx ▸ transferA_effect s s.readX 2 []⟩, ⟨_, rfl, hy ▸ transferA_effect s s.readY 2 []⟩,
    ⟨_, rfl, setC_effect s rfl _⟩, ⟨_, rfl, setC_effect s rfl _⟩,
    ⟨_, rfl, lo_word _ _, hi_word _ _, hnz, hquiet⟩⟩

/-! ### Transfers into S and D -/

/-- S written as a whole, in page $01 in emulation mode, and no flag (R39, R214, R215). -/
theorem writeS_effect (s : State) (v : Word) (n : Nat) :
    let t := (s.writeS v).charge n
    (if s.e then hi t.sp = 0x01 ∧ lo t.sp = lo v else t.sp = v) ∧ Keeps [.sp] [] s t ∧ MemKeptBut [] s t ∧
      t.trace = s.trace := by
  refine ⟨?_, keeps_writeS_charge s v n, memKept_of_eq rfl, rfl⟩
  rw [State.charge_sp, State.writeS_sp]
  cases s.e <;> simp

/-- Settles O40. -/
theorem transfersIntoStackAndDirect : Obligations.TransfersIntoStackAndDirect := by
  intro s pinned
  have hx : s.readX = if s.flag .x then s.x &&& 0x00FF else s.x := (readX_eq_trunc s).trans (trunc_wX_eq s s.x)
  obtain ⟨hnz, hk⟩ := putNZ_effect (keeps_setD s s.c) (v := s.c) (w := .w16) rfl (s.cost 2 [] .none)
  exact ⟨⟨_, rfl, hx ▸ writeS_effect s s.readX _⟩, ⟨_, rfl, writeS_effect s s.c _⟩,
    ⟨_, rfl, rfl, hnz, hk, memKept_of_eq rfl, rfl⟩⟩

end Sys2Proof.Proofs
end

section
/-! PROOFS. The family 44_mode_flags.md: XCE and the single-flag instructions (R282 to R291). -/

namespace Sys2Proof.Proofs

open Sys2Proof.Machine Sys2Proof.Safety

/-! ### Single-flag instructions (R284 to R290) -/

/-- One flag written to P: all that these instructions do. -/
theorem flagTo_effect (f : Flag) (b : Bool) (base : Nat) (mods : List CycleMod) (s : State) :
    let t := flagTo f b base mods s
    t.flag f = b ∧ Keeps [] [f] s t ∧ MemKeptBut [] s t ∧ t.trace = s.trace := by
  have hkept : ∀ g, g ∉ [f] → flagOf (withFlag s.p f b) g = s.flag g := fun g hg =>
    (flagOf_withFlag s.p f g b).trans (if_neg (mt List.mem_singleton.2 hg))
  exact ⟨(flagOf_withFlag s.p f f b).trans (if_pos rfl), keeps_withP (keeps_refl s) hkept _, memKept_of_eq rfl, rfl⟩

/-- Settles O52: the seven instructions are `flagTo` of their flag and value. -/
theorem singleFlagInstructions : Obligations.SingleFlagInstructions := by
  intro s puts
  exact ⟨⟨_, rfl, flagTo_effect .c false 2 [] s⟩, ⟨_, rfl, flagTo_effect .c true 2 [] s⟩,
    ⟨_, rfl, flagTo_effect .i false 2 [] s⟩, ⟨_, rfl, flagTo_effect .i true 2 [] s⟩,
    ⟨_, rfl, flagTo_effect .d false 2 [] s⟩, ⟨_, rfl, flagTo_effect .d true 2 [] s⟩,
    ⟨_, rfl, flagTo_effect .v false 2 [] s⟩⟩

/-! ### XCE (R282, R283) -/

/-- A frame that names more registers and flags says less. -/
theorem keeps_weaken {rs rs' : List Reg} {fs fs' : List Flag} {s t : State} (h : Keeps rs fs s t) (hr : rs ⊆ rs')
    (hf : fs ⊆ fs') : Keeps rs' fs' s t := by
  obtain ⟨hreg, hflag, hrest⟩ := h
  exact ⟨fun r hn => hreg r (mt (@hr r) hn), fun f hn => hflag f (mt (@hf f) hn), hrest⟩

/-- Two writes in one frame, one after the other. -/
theorem keeps_trans {rs : List Reg} {fs : List Flag} {s u t : State} (h : Keeps rs fs s u) (h' : Keeps rs fs u t) :
    Keeps rs fs s t := by
  obtain ⟨hreg, hflag, hdiag, hparams⟩ := h
  obtain ⟨hreg', hflag', hdiag', hparams'⟩ := h'
  exact ⟨fun r hr => (hreg' r hr).trans (hreg r hr), fun f hf => (hflag' f hf).trans (hflag f hf),
    hdiag'.trans hdiag, hparams'.trans hparams⟩

/-- The cycle counter is in no frame. -/
theorem keeps_charge {rs : List Reg} {fs : List Flag} {s t : State} (h : Keeps rs fs s t) (n : Nat) :
    Keeps rs fs s (t.charge n) := by
  obtain ⟨hreg, hflag, hdiag, hparams⟩ := h
  refine ⟨fun r hr => Eq.trans ?_ (hreg r hr), hflag, hdiag, hparams⟩
  cases r <;> rfl

/-- Entering emulation mode sets M and X in P and keeps every other flag (R283). -/
theorem flag_enterEmulation (s : State) (g : Flag) :
    s.enterEmulation.flag g = if g = .x then true else if g = .m then true else s.flag g := by
  rw [State.flag, State.enterEmulation_p, flagOf_withFlag, flagOf_withFlag, State.flag]

/-- Entering emulation mode writes the index registers, S, M and X (R283). -/
theorem keeps_enterEmulation (s : State) : Keeps [.x, .y, .sp] [.m, .x] s s.enterEmulation := by
  refine ⟨fun r hr => ?_, fun f hf => ?_, rfl, rfl⟩
  · cases r
    case x | y | sp => simp at hr
    all_goals rfl
  · simp only [List.mem_cons, List.not_mem_nil, or_false, not_or] at hf
    obtain ⟨hm, hx⟩ := hf
    rw [flag_enterEmulation, if_neg hx, if_neg hm]

/-- P.C and E exchanged, as XCE leaves them before it looks at E (R282). -/
def carrySwapped (s : State) : State := { s.putFlag .c s.e with e := s.flag .c }

theorem flag_carrySwapped (s : State) (g : Flag) :
    (carrySwapped s).flag g = if g = .c then s.e else s.flag g := State.flag_putFlag s .c g s.e

theorem keeps_carrySwapped (s : State) : Keeps [.e] [.c] s (carrySwapped s) := by
  refine ⟨fun r hr => ?_, fun f hf => ?_, rfl, rfl⟩
  · cases r
    case e => simp at hr
    all_goals rfl
  · rw [flag_carrySwapped, if_neg (mt List.mem_singleton.2 hf)]

/-- Settles O51: what holds of the exchange alone is kept by the entry into emulation mode, which pins the rest. -/
theorem xceExchangesCarryAndEmulation : Obligations.XceExchangesCarryAndEmulation := by
  intro s
  refine ⟨_, rfl, ?_⟩
  have hswap : Keeps [.x, .y, .sp, .e] [.c, .m, .x] s (carrySwapped s) :=
    keeps_weaken (keeps_carrySwapped s) (by simp) (by simp)
  by_cases hc : s.flag .c = true
  · have hentry : Keeps [.x, .y, .sp, .e] [.c, .m, .x] (carrySwapped s) (carrySwapped s).enterEmulation :=
      keeps_weaken (keeps_enterEmulation _) (by simp) (by simp)
    have henters : exchangeCarryEmulation s = (carrySwapped s).enterEmulation := exchange_of_carry hc
    rw [henters, if_pos hc]
    refine ⟨?_, rfl, ⟨?_, ?_, hi_zext _, lo_zext _, hi_zext _, lo_zext _, hi_word _ _, lo_word _ _⟩,
      keeps_charge (keeps_trans hswap hentry) _, memKept_of_eq rfl, rfl⟩ <;>
      simp [flag_enterEmulation, flag_carrySwapped]
  · have hleaves : exchangeCarryEmulation s = carrySwapped s := exchange_of_no_carry hc
    rw [hleaves, if_neg hc]
    refine ⟨?_, rfl, ⟨?_, ?_, rfl, rfl, rfl⟩, keeps_charge hswap _, memKept_of_eq rfl, rfl⟩ <;>
      simp [flag_carrySwapped]

end Sys2Proof.Proofs
end

section
/-! PROOFS. The family 45_stack_control.md: the pushes, and the pulls of a return (R304 to R319, R324, R325). -/

namespace Sys2Proof.Proofs

open Sys2Proof.Machine Sys2Proof.Safety

/-! ### Pushes -/

/-- Bytes pushed and nothing else, with the cycles charged. -/
theorem push_effect {s u : State} {bytes : List Byte} (hu : u = afterPushes s bytes) (hfew : bytes.length ≤ 2 ^ 8)
    (n : Nat) : Pushes bytes [] s (u.charge n) ∧ Keeps [.sp] [] s (u.charge n) := by
  subst hu
  exact ⟨pushes_afterPushes s hfew, keeps_charge (keeps_afterPushes s bytes) n⟩

theorem valueBytes_length (v : Word) (w : Width) : (valueBytes v w).length = w.bits / 8 := by
  cases w <;> simp [valueBytes, Width.bits]

/-- The bytes that one value pushes are far less than a page. -/
theorem valueBytes_reverse_few (v : Word) (w : Width) : (valueBytes v w).reverse.length ≤ 2 ^ 8 := by
  rw [List.length_reverse, valueBytes_length]
  cases w <;> decide

/-- A register pushed as it is read at its width: the register's own bytes (R302). -/
theorem pushW_trunc_effect (s : State) {v v' : Word} {w : Width} (hv : v' = w.trunc v) (n : Nat) :
    let t := (s.pushW v' w).charge n
    Pushes (valueBytes v w).reverse [] s t ∧ Keeps [.sp] [] s t :=
  push_effect (by rw [pushW_eq, hv, valueBytes_trunc]) (valueBytes_reverse_few v w) n

theorem push8_effect (s : State) (b : Byte) (n : Nat) :
    let t := (s.push8 b).charge n
    Pushes [b] [] s t ∧ Keeps [.sp] [] s t :=
  push_effect (push8_eq s b) (by simp) n

theorem push16_effect (s : State) (v : Word) (n : Nat) :
    let t := (s.push16 v).charge n
    Pushes [hi v, lo v] [] s t ∧ Keeps [.sp] [] s t :=
  push_effect (push16_eq s v) (by simp) n

/-- Two bytes, low byte first, are a word. -/
theorem littleEndian_pair (l h : Byte) : littleEndian [l, h] = (word h l).toNat := by
  simp only [littleEndian, word_toNat]
  omega

/-- The bytes of a word that was read low byte first, in the order in which it is pushed (R302). -/
theorem hi_lo_of_littleEndian {v : Word} {l h : Byte} (hv : v.toNat = littleEndian [l, h]) :
    [hi v, lo v] = [l, h].reverse := by
  rw [littleEndian_pair] at hv
  rw [BitVec.eq_of_toNat_eq hv, hi_word, lo_word]
  rfl

/-- PEI (R319): S is as before when the pointer has been read, so the pushes go where they would have gone. -/
theorem peiDpind_effect (s : State) (d : Byte) :
    let ptr := [bank0 (s.d.toNat + d.toNat), bank0 (s.d.toNat + d.toNat + 1)]
    ∃ t, exec (.peiDpind d) s = .next t ∧ Pushes (answers s ptr).reverse (readEvents s ptr) s t ∧
      Keeps [.sp] [] s t := by
  intro ptr
  obtain ⟨hval, hst⟩ := read16_bank0 s (addrOf_zero_add_zext s.d d)
  refine ⟨_, rfl, ?_⟩
  rw [hst, push16_eq, hi_lo_of_littleEndian hval]
  obtain ⟨⟨hstored, hkept, htrace⟩, hsp⟩ :=
    pushes_afterPushes (afterReads s ptr) (bytes := (answers s ptr).reverse) (by simp [ptr])
  rw [List.append_nil] at htrace
  exact ⟨⟨⟨hstored, hkept, htrace⟩, hsp⟩, keeps_charge (keeps_afterPushes (afterReads s ptr) _) _⟩

/-- Settles O53: each push at its length, and PEI after the reads of its pointer; the target that PER pushes is the sum
of R317 by the definition of addition on words. -/
theorem pushInstructions : Obligations.PushInstructions := by
  intro s d v pushes both sized ptr
  refine ⟨⟨_, rfl, pushW_trunc_effect s (readA_eq_trunc s) _⟩, ⟨_, rfl, pushW_trunc_effect s (readX_eq_trunc s) _⟩,
    ⟨_, rfl, pushW_trunc_effect s (readY_eq_trunc s) _⟩, ⟨_, rfl, push8_effect s s.p _⟩,
    ⟨_, rfl, push8_effect s s.dbr _⟩, ⟨_, rfl, push8_effect s s.pbr _⟩, ⟨_, rfl, push16_effect s s.d _⟩,
    ⟨_, rfl, push16_effect s v _⟩, ⟨_, rfl, push16_effect s (s.pc + v) _⟩, peiDpind_effect s d⟩

/-! ### RTS and RTL -/

/-- RTS (R324). -/
theorem rtsImp_effect (s : State) : ∃ t, exec .rtsImp s = .next t ∧ Pulls 1 s t ∧
    t.pc.toNat = (littleEndian (answers s (pullAddrs s 2)) + 1) % 2 ^ 16 ∧ Keeps [.sp, .pc] [] s t := by
  obtain ⟨hval, hst⟩ := pull16_eq s
  refine ⟨_, rfl, ?_⟩
  rw [hst]
  exact ⟨pulls_afterPulls s 1, (BitVec.toNat_add _ _).trans (congrArg (fun m => (m + 1) % 2 ^ 16) hval),
    keeps_sp_pc (keeps_afterPulls s 1) _⟩

/-- The state after three bytes are pulled, two of them as a word. -/
theorem pull16_pull8 (s : State) : s.pull16.2.pull8.2 = afterPulls s 2 := by
  rw [← afterPulls_succ, ← afterPulls_succ, ← (pull8_eq _).2]
  rfl

/-- RTL (R325): it writes PBR and PC as a long jump to the pulled bank and the next offset does. -/
theorem rtlImp_effect (s : State) :
    let frame := answers s (pullAddrs s 3)
    ∃ t, exec .rtlImp s = .next t ∧ Pulls 2 s t ∧ t.pc.toNat = (littleEndian (frame.take 2) + 1) % 2 ^ 16 ∧
      t.pbr = frame.getD 2 0 ∧ Keeps [.sp, .pc, .pbr] [] s t := by
  intro frame
  have hframe : frame = [s.pull8.1, s.pull8.2.pull8.1, s.pull16.2.pull8.1] := by
    simp only [frame, answers_pulls_succ]; rfl
  refine ⟨_, rfl, ?_⟩
  rw [pull16_pull8, hframe]
  refine ⟨pulls_afterPulls s 2, ?_, rfl, ?_⟩
  · exact (BitVec.toNat_add _ _).trans (congrArg (fun m => (m + 1) % 2 ^ 16) (littleEndian_pair _ _).symm)
  · have h := keeps_sp_pc_pbr (keeps_afterPulls s 2) (addrOf s.pull16.2.pull8.1 (s.pull16.1 + 1))
    rw [State.jumpLong, alBank_addrOf, alOffset_addrOf] at h
    exact h

/-- Settles O57: the frame of RTL begins with that of RTS. -/
theorem returnsPullAddress : Obligations.ReturnsPullAddress :=
  fun s => ⟨rtsImp_effect s, rtlImp_effect s⟩

end Sys2Proof.Proofs
end

section
/-! PROOFS. The family 45_stack_control.md: pulls right after pushes, and returns right after calls (R300 to R303,
R322 to R325). -/

namespace Sys2Proof.Proofs

open Sys2Proof.Machine Sys2Proof.Safety

/-! ### A pull after a push (R303) -/

/-- The bytes of a value that fits its width stand for it (R302). -/
theorem littleEndian_valueBytes {v : Word} {w : Width} (h : v.toNat < 2 ^ w.bits) :
    littleEndian (valueBytes v w) = v.toNat := by
  cases w
  case w8 =>
    have hlt : v.toNat < 2 ^ 8 := h
    rw [valueBytes, littleEndian, littleEndian, lo_toNat]
    omega
  case w16 => rw [valueBytes, littleEndian_pair, word_hi_lo]

/-- Settles O22: the pull answers the pushed bytes in reverse, so low byte first, and moves S back over them. -/
theorem pushThenPullReturns : Obligations.PushThenPullReturns := by
  intro s v w hpage hram hfits
  rw [pushW_eq]
  have hfew := valueBytes_reverse_few v w
  have hlen : (valueBytes v w).reverse.length = w.bits / 8 - 1 + 1 := by
    rw [List.length_reverse, valueBytes_length]; cases w <;> rfl
  have hanswers := answers_after_pushes (u := afterPushes s (valueBytes v w).reverse) hpage hram rfl rfl rfl hfew
  obtain ⟨hval, -⟩ := pullW_eq (afterPushes s (valueBytes v w).reverse) w
  obtain ⟨-, -, hsp⟩ := pulls_pullW (afterPushes s (valueBytes v w).reverse) w
  rw [pulled, ← hlen, hanswers, List.reverse_reverse, littleEndian_valueBytes hfits] at hval
  exact ⟨BitVec.eq_of_toNat_eq hval,
    hsp.trans (spAfterPulls_after_pushes hpage rfl (hlen ▸ rfl) (hlen.ge.trans hfew))⟩

/-! ### A return after a call -/

/-- Bytes stored one at each address read back in order. -/
theorem map_read_of_stored {m : Memory} {addrs : List Addr} {bytes : List Byte}
    (hstored : ∀ p ∈ addrs.zip bytes, Memory.read m p.1.toNat = p.2) (hlen : addrs.length = bytes.length) :
    (addrs.map fun a => Memory.read m a.toNat) = bytes :=
  calc (addrs.map fun a => Memory.read m a.toNat)
    _ = ((addrs.zip bytes).map Prod.fst).map fun a => Memory.read m a.toNat := by rw [List.map_fst_zip hlen.le]
    _ = (addrs.zip bytes).map Prod.snd := by rw [List.map_map]; exact List.map_congr_left hstored
    _ = bytes := List.map_snd_zip hlen.ge

/-- With a RAM collaborator, as many pulls as bytes stored by pushes answer those bytes, last first (R303). -/
theorem answers_of_stored {s u : State} {bytes : List Byte} (hpage : s.e = true → hi s.sp = 0x01)
    (hram : u.params.oracleRanges = []) (he : u.e = s.e) (hsp : u.sp = spAfterPushes s bytes.length)
    (hstored : ∀ p ∈ (pushAddrs s bytes.length).zip bytes, Memory.read u.mem p.1.toNat = p.2)
    (hn : bytes.length ≤ 2 ^ 8) : answers u (pullAddrs u bytes.length) = bytes.reverse := by
  rw [answers_ram hram, pullAddrs_after_pushes hpage he hsp hn, List.map_reverse,
    map_read_of_stored hstored (by simp [pushAddrs])]

theorem e_of_keeps {rs : List Reg} {fs : List Flag} {s t : State} (h : Keeps rs fs s t) (he : Reg.e ∉ rs) :
    t.e = s.e := by
  obtain ⟨hreg, -⟩ := h
  have hnum : t.e.toNat = s.e.toNat := hreg .e he
  rw [Bool.eq_iff_iff, ← Bool.toNat_eq_one, hnum, Bool.toNat_eq_one]

theorem pbr_of_keeps {rs : List Reg} {fs : List Flag} {s t : State} (h : Keeps rs fs s t) (hp : Reg.pbr ∉ rs) :
    t.pbr = s.pbr := by
  obtain ⟨hreg, -⟩ := h
  exact BitVec.eq_of_toNat_eq (hreg .pbr hp)

/-- A call pushes the return address less one, and a return adds the one again (R322, R324). -/
theorem return_address (pc : Word) : (littleEndian [lo (pc - 1), hi (pc - 1)] + 1) % 2 ^ 16 = pc.toNat := by
  rw [littleEndian_pair, word_hi_lo, pc_sub_one, BitVec.toNat_ofNat]
  omega

/-- The state `t` that a call leaves, for a return: it has pushed the bytes and kept E, in a RAM collaborator. -/
structure Called (bytes : List Byte) (s t : State) : Prop where
  page : s.e = true → hi s.sp = 0x01
  ram : t.params.oracleRanges = []
  e : t.e = s.e
  sp : t.sp = spAfterPushes s bytes.length
  stored : ∀ p ∈ (pushAddrs s bytes.length).zip bytes, Memory.read t.mem p.1.toNat = p.2

namespace Called

variable {bytes : List Byte} {s t : State}

/-- A call whose frame leaves E, from a state that keeps the invariants. -/
theorem of_keeps {rs : List Reg} (hinv : Inv s) (hram : s.params.oracleRanges = []) (hk : Keeps rs [] s t)
    (he : Reg.e ∉ rs) (hsp : t.sp = spAfterPushes s bytes.length)
    (hstored : ∀ p ∈ (pushAddrs s bytes.length).zip bytes, Memory.read t.mem p.1.toNat = p.2) :
    Called bytes s t := by
  obtain ⟨hemu, -, -⟩ := hinv
  have ⟨_, _, _, hparams⟩ := hk
  exact ⟨fun h => by obtain ⟨-, -, hpage, -⟩ := hemu h; exact hpage, hparams ▸ hram, e_of_keeps hk he, hsp, hstored⟩

/-- RTS after a call that pushed the return address. -/
theorem rts_comesBack (h : Called [hi (s.pc - 1), lo (s.pc - 1)] s t) (hpbr : t.pbr = s.pbr) :
    ∃ u, exec .rtsImp t = .next u ∧ u.pc = s.pc ∧ u.pbr = s.pbr ∧ u.sp = s.sp := by
  obtain ⟨u, hexec, ⟨-, -, hsp⟩, hpc, hkeeps⟩ := rtsImp_effect t
  have hframe : answers t (pullAddrs t 2) = [lo (s.pc - 1), hi (s.pc - 1)] :=
    answers_of_stored h.page h.ram h.e h.sp h.stored (by simp)
  rw [hframe, return_address] at hpc
  exact ⟨u, hexec, BitVec.eq_of_toNat_eq hpc, (pbr_of_keeps hkeeps (by decide)).trans hpbr,
    hsp.trans (spAfterPulls_after_pushes h.page h.e h.sp (by decide))⟩

/-- RTL after a call that pushed PBR and the return address. -/
theorem rtl_comesBack (h : Called [s.pbr, hi (s.pc - 1), lo (s.pc - 1)] s t) :
    ∃ u, exec .rtlImp t = .next u ∧ u.pc = s.pc ∧ u.pbr = s.pbr ∧ u.sp = s.sp := by
  obtain ⟨u, hexec, ⟨-, -, hsp⟩, hpc, hpbr, -⟩ := rtlImp_effect t
  have hframe : answers t (pullAddrs t 3) = [lo (s.pc - 1), hi (s.pc - 1), s.pbr] :=
    answers_of_stored h.page h.ram h.e h.sp h.stored (by simp)
  rw [hframe] at hpc hpbr
  exact ⟨u, hexec, BitVec.eq_of_toNat_eq (hpc.trans (return_address s.pc)), hpbr,
    hsp.trans (spAfterPulls_after_pushes h.page h.e h.sp (by decide))⟩

end Called

/-- Settles O21: each call leaves a `Called` state, and the return of its length comes back from there. -/
theorem callThenReturnRestores : Obligations.CallThenReturnRestores := by
  intro s a al hinv hram comesBack
  refine ⟨?_, ?_, ?_⟩
  · obtain ⟨t, hexec, ⟨⟨hstored, -⟩, hsp⟩, -, hkeeps⟩ := jsrAbs_effect s a
    have hcalled := Called.of_keeps hinv hram hkeeps (by decide) hsp hstored
    exact ⟨t, hexec, hcalled.rts_comesBack (pbr_of_keeps hkeeps (by decide))⟩
  · obtain ⟨t, hexec, hstored, -, hsp, -, -, hkeeps⟩ := jsrAbsxind_effect s a
    have hcalled : Called [hi (s.pc - 1), lo (s.pc - 1)] s t := .of_keeps hinv hram hkeeps (by decide) hsp hstored
    exact ⟨t, hexec, hcalled.rts_comesBack (pbr_of_keeps hkeeps (by decide))⟩
  · obtain ⟨t, hexec, ⟨⟨hstored, -⟩, hsp⟩, -, -, hkeeps⟩ := jslLong_effect s al
    have hcalled := Called.of_keeps hinv hram hkeeps (by decide) hsp hstored
    exact ⟨t, hexec, hcalled.rtl_comesBack⟩

end Sys2Proof.Proofs
end

section
/-! PROOFS. The family 45_stack_control.md: BRK and COP enter their handlers (R341, R342, R403 to R405). -/

namespace Sys2Proof.Proofs

open Sys2Proof.Machine Sys2Proof.Safety

theorem entryBytes_few (s : State) (k : EntryKind) : (entryBytes s k).length ≤ 2 ^ 8 := by
  unfold entryBytes
  cases s.e <;> simp

/-- Interrupt entry after its pushes, when it is about to read the vector (R404). -/
def beforeVector (s : State) (k : EntryKind) : State :=
  { ((afterPushes s (entryBytes s k)).putFlag .i true).putFlag .d false with pbr := 0x00 }

/-- The two addresses of the vector (R403). -/
def vectorAddrs (s : State) (k : EntryKind) : List Addr := [bank0 (vectorOf s.e k), bank0 (vectorOf s.e k + 1)]

/-- Interrupt entry: the vector is read and PC goes to it (R404). -/
theorem enterInterrupt_beforeVector (s : State) (k : EntryKind) :
    s.enterInterrupt k = { afterReads (beforeVector s k) (vectorAddrs s k) with
      pc := BitVec.ofNat 16 (littleEndian (answers (beforeVector s k) (vectorAddrs s k))) } :=
  enterInterrupt_eq s k

theorem flags_beforeVector (s : State) (k : EntryKind) :
    (beforeVector s k).flag .i = true ∧ (beforeVector s k).flag .d = false := by
  simp only [State.flag, beforeVector, State.putFlag_p, flagOf_withFlag, if_true, reduceCtorEq, if_false, and_self]

/-- The two flags and PBR are written after the pushes, and change none of what the vector's reads depend on. -/
theorem beforeVector_fields (s : State) (k : EntryKind) :
    let b := beforeVector s k
    let t := afterPushes s (entryBytes s k)
    b.mem = t.mem ∧ b.trace = t.trace ∧ b.params = t.params ∧ b.sp = t.sp ∧ b.pbr = 0x00 := by
  simp only [beforeVector, State.putFlag_mem, State.putFlag_trace, State.putFlag_params, State.putFlag_sp, and_self]

theorem keeps_putFlag (s : State) (f : Flag) (b : Bool) : Keeps [] [f] s (s.putFlag f b) := by
  refine ⟨fun r _ => by cases r <;> rfl, fun g hg => ?_, rfl, rfl⟩
  rw [State.flag_putFlag, if_neg (mt List.mem_singleton.2 hg)]

theorem keeps_setPbr (s : State) (v : Byte) : Keeps [.pbr] [] s { s with pbr := v } := by
  refine keeps_write (keeps_refl s) (fun r hr => ?_) (fun _ _ => rfl) rfl rfl
  cases r
  case pbr => exact absurd rfl hr
  all_goals rfl

/-- Interrupt entry writes S, PBR, I and D before it reads the vector (R404). -/
theorem keeps_beforeVector (s : State) (k : EntryKind) : Keeps [.sp, .pbr] [.i, .d] s (beforeVector s k) := by
  have hpushes := keeps_afterPushes s (entryBytes s k)
  have hmask := keeps_putFlag (afterPushes s (entryBytes s k)) .i true
  have hbinary := keeps_putFlag ((afterPushes s (entryBytes s k)).putFlag .i true) .d false
  refine keeps_trans (keeps_weaken hpushes (by simp) (by simp)) ?_
  refine keeps_trans (keeps_weaken hmask (by simp) (by simp)) ?_
  refine keeps_trans (keeps_weaken hbinary (by simp) (by simp)) ?_
  exact keeps_weaken (keeps_setPbr _ 0x00) (by simp) (by simp)

/-- What interrupt entry does (R403 to R405); the cycles charged after it change none of this. -/
theorem enterInterrupt_enters (s : State) (k : EntryKind) (n : Nat) :
    Enters k s ((s.enterInterrupt k).charge n) := by
  have hbefore := keeps_beforeVector s k
  obtain ⟨hmem, htrace, hparams, hsp, hpbr⟩ := beforeVector_fields s k
  obtain ⟨hmask, hbinary⟩ := flags_beforeVector s k
  obtain ⟨⟨hstored, hkept, -⟩, -⟩ := pushes_afterPushes s (entryBytes_few s k)
  rw [enterInterrupt_beforeVector]
  generalize beforeVector s k = b at *
  unfold Enters
  intro bytes addrs pushed v u
  have hanswers : answers b v = answers u v := answers_congr hmem hparams (congrArg List.length htrace) v
  have hreads : readEvents b v = readEvents u v :=
    readEvents_congr hmem hparams (congrArg List.length htrace) v
  have hvector : littleEndian (answers u v) < 2 ^ 16 := by
    have h := littleEndian_lt (answers u v)
    rwa [answers_length] at h
  refine ⟨fun p hp => ?_, fun q hq => ?_, ?_, hsp, ?_, hpbr, hmask, hbinary, ?_⟩
  · exact (congrArg (Memory.read · _) hmem).trans (hstored p hp)
  · exact (congrArg (Memory.read · _) hmem).trans (hkept q hq)
  · exact congr (congrArg HAppend.hAppend htrace) hreads
  · calc littleEndian (answers b v) % 2 ^ 16
      _ = littleEndian (answers u v) % 2 ^ 16 := by rw [hanswers]
      _ = littleEndian (answers u v) := Nat.mod_eq_of_lt hvector
  · exact keeps_trans (keeps_weaken hbefore (by simp) (by simp))
      (keeps_weaken (keeps_pc (keeps_reads b (vectorAddrs s k)) _ n) (by simp) (by simp))

/-- Settles O18: each of the two is the entry of its kind, with its cycles charged. -/
theorem brkAndCopEnterHandlers : Obligations.BrkAndCopEnterHandlers :=
  fun s _ => ⟨⟨_, rfl, enterInterrupt_enters s .brk _⟩, ⟨_, rfl, enterInterrupt_enters s .cop _⟩⟩

end Sys2Proof.Proofs
end

section
/-! PROOFS. The family 46_system.md: the unknown-opcode path, the idle step, NOP, WDM, WAI and STP (R355 to R361,
R365 to R367). -/

namespace Sys2Proof.Proofs

open Sys2Proof.Machine Sys2Proof.Safety

/-! ### The two paths of a step that run no instruction -/

/-- A charge that is a parameter of the core is added whole: 32 bits fit the 64 of the counter (R45, D31). -/
theorem charge_toNat (s : State) (n : BitVec 32) :
    s.charge n.toNat = { s with cycles := s.cycles + n.setWidth 64 } := by
  rw [State.charge, BitVec.ofNat_toNat]

/-- Settles O7: the idle step is one charge. -/
theorem idleStepOnlyCharges : Obligations.IdleStepOnlyCharges := by
  intro s hidle
  rw [step_of_not_running hidle, idleStep, charge_toNat]

/-- An opcode byte is unknown if the parameter lists it (R111, R355). -/
theorem unknownOp_iff (s : State) (op : Byte) : s.unknownOp op = true ↔ op ∈ s.params.unimplemented :=
  List.contains_iff_mem

/-- All that the unknown-opcode path does: the record, where the core emits any, and the charge (R355, R356). -/
theorem unknownOpcode_eq (op : Byte) (pc0 : Word) (s : State) :
    unknownOpcode op pc0 s = { s with
      diag := s.diag ++ (if s.params.diagEnabled then [⟨s.pbr, pc0, op⟩] else [])
      cycles := s.cycles + s.params.unknownOpcodeCycles.setWidth 64 } := by
  rw [unknownOpcode, charge_toNat]
  by_cases hdiag : s.params.diagEnabled = true
  · simp only [if_pos hdiag]
  · simp only [if_neg hdiag, List.append_nil]

/-- Settles O6: the fetch reads the byte and moves PC past it, and `unknownOpcode_eq` gives the rest. -/
theorem unknownOpcodeIsSkipped : Obligations.UnknownOpcodeIsSkipped := by
  intro s a hrun hlisted
  have hunknown : s.unknownOp s.fetch8.1 = true := (unknownOp_iff s s.fetch8.1).2 hlisted
  rw [step_of_unknownOp hrun hunknown, unknownOpcode_eq]
  rfl

/-! ### NOP, WDM, WAI and STP -/

theorem keeps_setRun (s : State) (r : RunState) : Keeps [.run] [] s { s with run := r } := by
  refine keeps_write (keeps_refl s) (fun q hq => ?_) (fun _ _ => rfl) rfl rfl
  cases q
  case run => exact absurd rfl hq
  all_goals rfl

/-- NOP and WDM: cycles are all that they spend (R360, R361). -/
theorem charge_effect (s : State) (n : Nat) :
    let t := s.charge n
    t.run = s.run ∧ Keeps [] [] s t ∧ MemKeptBut [] s t ∧ t.trace = s.trace :=
  ⟨rfl, keeps_charge (keeps_refl s) n, memKept_of_eq rfl, rfl⟩

/-- WAI and STP: the run state is the one thing that they write (R365, R366). -/
theorem setRun_effect (s : State) (r : RunState) (n : Nat) :
    let t := { s with run := r }.charge n
    t.run = r ∧ Keeps [.run] [] s t ∧ MemKeptBut [] s t ∧ t.trace = s.trace :=
  ⟨rfl, keeps_charge (keeps_setRun s r) n, memKept_of_eq rfl, rfl⟩

/-- Settles O60. -/
theorem nopWdmWaiStp : Obligations.NopWdmWaiStp := by
  intro s _ runs
  exact ⟨⟨_, rfl, charge_effect s _⟩, ⟨_, rfl, charge_effect s _⟩, ⟨_, rfl, setRun_effect s .waiting _⟩,
    ⟨_, rfl, setRun_effect s .stopped _⟩⟩

end Sys2Proof.Proofs
end

section
/-! PROOFS. The family 60_exceptions.md: the delivery of an interrupt (R404, R410, R412). -/

namespace Sys2Proof.Proofs

open Sys2Proof.Machine Sys2Proof.Safety

/-! ### The three answers to an interrupt -/

theorem interrupt_of_stopped {s : State} (k : InterruptKind) (hrun : s.run = .stopped) : interrupt k s = (0, s) :=
  if_pos hrun

theorem interrupt_of_masked {k : InterruptKind} {s : State} (hrun : s.run ≠ .stopped)
    (hmask : k = .irq ∧ s.flag .i = true) :
    interrupt k s =
      (0, if s.run = .waiting ∧ s.params.waiWakeOnMaskedIrq = true then { s with run := .running } else s) := by
  simp only [interrupt, if_neg hrun, Bool.and_eq_true, decide_eq_true_eq, if_pos hmask]

theorem interrupt_of_taken {k : InterruptKind} {s : State} (hrun : s.run ≠ .stopped)
    (htaken : ¬(k = .irq ∧ s.flag .i = true)) :
    interrupt k s =
      (s.interruptCycles, (({ s with run := .running }.enterInterrupt k.entry).charge s.interruptCycles.toNat)) := by
  simp only [interrupt, if_neg hrun, Bool.and_eq_true, decide_eq_true_eq, if_neg htaken]

/-! ### The charge of a taken interrupt -/

/-- Interrupt entry spends no cycles of its own: the cost is charged after it (R412). -/
theorem enterInterrupt_cycles (s : State) (k : EntryKind) : (s.enterInterrupt k).cycles = s.cycles := by
  rw [enterInterrupt_beforeVector]
  rfl

/-- Settles O17, by the three answers: the third is an entry made from the running state, with its cost charged. -/
theorem interruptDelivery : Obligations.InterruptDelivery := by
  intro k s masked
  refine ⟨interrupt_of_stopped k, interrupt_of_masked, fun hrun htaken => ?_⟩
  rw [interrupt_of_taken hrun htaken]
  refine ⟨rfl, ?_, enterInterrupt_enters { s with run := .running } k.entry _⟩
  rw [charge_toNat, enterInterrupt_cycles]
  rfl

end Sys2Proof.Proofs
end

section
/-! PROOFS. The family 70_reset_and_hazards.md: what each shared operation spends, and the cost of the grid in the
terms of the cycle accountant (R460 to R464). -/

namespace Sys2Proof.Proofs

open Sys2Proof.Machine Sys2Proof.Safety

/-! ### No shared operation spends cycles of its own -/

@[simp] theorem ea_cycles (s : State) (m : DataMode) : (s.ea m).st.cycles = s.cycles := by
  obtain ⟨addrs, h⟩ := ea_reads s m
  rw [h]; rfl

@[simp] theorem operandRead_cycles (s : State) (src : Operand) (w : Width) :
    (s.operandRead src w).st.cycles = s.cycles := by
  obtain ⟨addrs, h⟩ := operandRead_reads s src w
  rw [h]; rfl

@[simp] theorem readW_cycles (s : State) (q : Seq) (a : Addr) (w : Width) : (s.readW q a w).2.cycles = s.cycles := by
  rw [(readW_eq s q a w).2]; rfl

@[simp] theorem writeW_cycles (s : State) (q : Seq) (a : Addr) (w : Width) (v : Word) :
    (s.writeW q a w v).cycles = s.cycles := by
  rw [writeW_eq]; rfl

@[simp] theorem operandWrite_cycles (s : State) (m : DataMode) (w : Width) (v : Word) :
    (s.operandWrite m w v).cycles = s.cycles :=
  (writeW_cycles _ _ _ _ _).trans (ea_cycles s m)

@[simp] theorem read16_cycles (s : State) (q : Seq) (a : Addr) : (s.read16 q a).2.cycles = s.cycles := by
  rw [(read16_eq s q a).2]; rfl

@[simp] theorem read24_cycles (s : State) (q : Seq) (a : Addr) : (s.read24 q a).2.cycles = s.cycles := by
  rw [(read24_eq s q a).2]; rfl

@[simp] theorem programPointer_cycles (s : State) (a : Word) : (s.programPointer a).2.cycles = s.cycles := by
  simp only [State.programPointer, State.memRead_cycles]

@[simp] theorem push16_cycles (s : State) (v : Word) : (s.push16 v).cycles = s.cycles := by
  rw [push16_eq]; rfl

@[simp] theorem pull16_cycles (s : State) : s.pull16.2.cycles = s.cycles := by
  rw [(pull16_eq s).2]; rfl

@[simp] theorem pushW_cycles (s : State) (v : Word) (w : Width) : (s.pushW v w).cycles = s.cycles := by
  rw [pushW_eq]; rfl

@[simp] theorem pullW_cycles (s : State) (w : Width) : (s.pullW w).2.cycles = s.cycles := by
  rw [(pullW_eq s w).2]; rfl

@[simp] theorem exchangeCarryEmulation_cycles (s : State) : (exchangeCarryEmulation s).cycles = s.cycles := by
  by_cases hc : s.flag .c = true
  · rw [exchange_of_carry hc]; rfl
  · rw [exchange_of_no_carry hc]; rfl

@[simp] theorem returnFromInterrupt_cycles (s : State) : s.returnFromInterrupt.cycles = s.cycles := by
  cases he : s.e
  · rw [returnFromInterrupt_native s he]; simp
  · rw [returnFromInterrupt_emulation s he]; simp

@[simp] theorem blockStep_cycles (delta : Word) (dst src : Byte) (s : State) :
    (blockStep delta dst src s).cycles = s.cycles := by
  rw [blockStep_eq]

/-! ### The cost of the grid -/

/-- What the grid's modifiers read besides the state (R154, R462), as the accountant takes it. -/
def cycleInfo (s : State) (i : Instr) : CycleInfo where
  crossed := crossesPage s i
  taken := (branchOutcome s i).1
  newPage := (branchOutcome s i).2

/-- The modifiers of R461 and R462 in the accountant's words. -/
theorem modCycles_cycleInfo (s : State) (i : Instr) (m : CycleMod) :
    s.modCycles (cycleInfo s i) m = modifierCost s i m := by
  cases m with
  | m1 | m2 | x1 | e => rfl
  | dl =>
    have hlow : lo s.d = 0 ↔ s.d.toNat % 2 ^ 8 = 0 := by rw [← BitVec.toNat_inj, lo_toNat]; rfl
    simp only [State.modCycles, modifierCost, hlow, ne_eq, ite_not]
  | px =>
    change (if s.p.getLsbD 4 && !crossesPage s i then 0 else 1) =
      if s.p.getLsbD 4 = false ∨ crossesPage s i = true then 1 else 0
    cases s.p.getLsbD 4 <;> cases crossesPage s i <;> rfl
  | br | bra => simp only [State.modCycles, modifierCost, cycleInfo, Bool.and_eq_true]

/-- The cost of R464 is the accountant's `Cost` (R460) of the grid's cell. -/
theorem gridCost_eq_cost (s : State) (i : Instr) :
    gridCost s i = s.cost (cycleCell i.opcode).1 (cycleCell i.opcode).2 (cycleInfo s i) := by
  rw [gridCost, State.cost, funext (modCycles_cycleInfo s i)]

/-! ### The bounds of the grid (R463) -/

/-- The most that a modifier adds (R461, R462). -/
def mostCycles : CycleMod → Nat
  | .m2 | .br => 2
  | .m1 | .x1 | .dl | .px | .e | .bra => 1

theorem modifierCost_le_mostCycles (s : State) (i : Instr) (m : CycleMod) : modifierCost s i m ≤ mostCycles m := by
  cases m with
  | m1 | m2 | x1 | dl | px | e | bra => simp only [modifierCost, mostCycles]; split <;> decide
  | br =>
    simp only [modifierCost, mostCycles]
    split
    · split <;> decide
    · decide

/-- Every cell of R464 costs at least 2, and at most 9 with all of its modifiers. -/
theorem cycleCell_bounds : ∀ op : Byte,
    2 ≤ (cycleCell op).1 ∧ (cycleCell op).1 + ((cycleCell op).2.map mostCycles).sum ≤ 9 := by decide

theorem gridCost_bounds (i : Instr) (s : State) : 2 ≤ gridCost s i ∧ gridCost s i ≤ 9 := by
  obtain ⟨hlow, hhigh⟩ := cycleCell_bounds i.opcode
  have hsum := List.sum_le_sum fun m (_ : m ∈ (cycleCell i.opcode).2) => modifierCost_le_mostCycles s i m
  rw [gridCost]
  omega

/-! ### A meaning that ends in a charge -/

/-- From `s` to `t`, the counter advances by what the grid says of `i` in `s` (R45, R464). -/
def ChargesGrid (i : Instr) (s t : State) : Prop := t.cycles = s.cycles + BitVec.ofNat 64 (gridCost s i)

/-- A meaning that spends nothing but a charge with the grid's cell and the grid's view of the state. The
opcode is taken as a number, so that its cell is looked up by computation. -/
theorem chargesGrid_of_charge {i : Instr} {s u : State} {op base : Nat} {mods : List CycleMod} {info : CycleInfo}
    (hu : u.cycles = s.cycles) (hop : i.opcode = BitVec.ofNat 8 op)
    (hcell : cycleCell (BitVec.ofNat 8 op) = (base, mods)) (hinfo : info = cycleInfo s i) :
    ChargesGrid i s (u.charge (s.cost base mods info)) := by
  rw [ChargesGrid, State.charge_cycles, hu, gridCost_eq_cost, hop, hcell, hinfo]

/-- A meaning that reads its operand and charges with the operand's page-cross predicate. -/
theorem chargesGrid_of_read {i : Instr} {s u : State} {src : Operand} {w : Width} {op base : Nat}
    {mods : List CycleMod} (hu : u.cycles = s.cycles) (hop : i.opcode = BitVec.ofNat 8 op)
    (hcell : cycleCell (BitVec.ofNat 8 op) = (base, mods)) (hbranch : branchOutcome s i = (false, false))
    (hcross : (s.operandRead src w).crossed = crossesPage s i) :
    ChargesGrid i s (u.charge (s.cost base mods (s.operandRead src w).info)) :=
  chargesGrid_of_charge hu hop hcell (by rw [cycleInfo, hbranch, ← hcross]; rfl)

/-- The page-cross predicate of the resolver is that of R154. -/
theorem pageCrossed_eq_bne (base index : Word) :
    pageCrossed base index = ((base.toNat + index.toNat) / 2 ^ 8 != base.toNat / 2 ^ 8) := by
  rw [Bool.eq_iff_iff, pageCrossed, decide_eq_true_iff, bne_iff_ne]

end Sys2Proof.Proofs
end

section
/-! PROOFS. The family 70_reset_and_hazards.md: every instruction charges the cost that the grid gives its opcode. -/

namespace Sys2Proof.Proofs

open Sys2Proof.Machine Sys2Proof.Safety

/-- The charge of each of the 256 meanings against its cell of R464. A meaning differs in one thing besides its
cell: whether it charges with its operand's page-cross predicate, with a branch's outcome, or with neither. -/
theorem exec_chargesGrid (s : State) : ∀ i : Instr, ∃ t, exec i s = .next t ∧ ChargesGrid i s t
  -- The reads that R154 makes pay for a page cross.
  | .adcDpindy _ | .adcAbsy _ | .adcAbsx _ | .andDpindy _ | .andAbsy _ | .andAbsx _ | .bitAbsx _ |
    .cmpDpindy _ | .cmpAbsy _ | .cmpAbsx _ | .eorDpindy _ | .eorAbsy _ | .eorAbsx _ | .ldaDpindy _ |
    .ldaAbsy _ | .ldaAbsx _ | .ldxAbsy _ | .ldyAbsx _ | .oraDpindy _ | .oraAbsy _ | .oraAbsx _ |
    .sbcDpindy _ | .sbcAbsy _ | .sbcAbsx _ =>
    ⟨_, rfl, chargesGrid_of_read (by simp) rfl rfl rfl (pageCrossed_eq_bne _ _)⟩
  -- The other reads, whose modes never pay for one.
  | .adcDpxind _ | .adcSr _ | .adcDp _ | .adcDplong _ | .adcImmM _ | .adcAbs _ | .adcLong _ | .adcDpind _ |
    .adcSriy _ | .adcDpx _ | .adcDplongy _ | .adcLongx _ | .andDpxind _ | .andSr _ | .andDp _ |
    .andDplong _ | .andImmM _ | .andAbs _ | .andLong _ | .andDpind _ | .andSriy _ | .andDpx _ |
    .andDplongy _ | .andLongx _ | .bitDp _ | .bitAbs _ | .bitDpx _ | .bitImmM _ | .cmpDpxind _ | .cmpSr _ |
    .cmpDp _ | .cmpDplong _ | .cmpImmM _ | .cmpAbs _ | .cmpLong _ | .cmpDpind _ | .cmpSriy _ | .cmpDpx _ |
    .cmpDplongy _ | .cmpLongx _ | .cpxImmX _ | .cpxDp _ | .cpxAbs _ | .cpyImmX _ | .cpyDp _ | .cpyAbs _ |
    .eorDpxind _ | .eorSr _ | .eorDp _ | .eorDplong _ | .eorImmM _ | .eorAbs _ | .eorLong _ | .eorDpind _ |
    .eorSriy _ | .eorDpx _ | .eorDplongy _ | .eorLongx _ | .ldaDpxind _ | .ldaSr _ | .ldaDp _ |
    .ldaDplong _ | .ldaImmM _ | .ldaAbs _ | .ldaLong _ | .ldaDpind _ | .ldaSriy _ | .ldaDpx _ |
    .ldaDplongy _ | .ldaLongx _ | .ldxImmX _ | .ldxDp _ | .ldxAbs _ | .ldxDpy _ | .ldyImmX _ | .ldyDp _ |
    .ldyAbs _ | .ldyDpx _ | .oraDpxind _ | .oraSr _ | .oraDp _ | .oraDplong _ | .oraImmM _ | .oraAbs _ |
    .oraLong _ | .oraDpind _ | .oraSriy _ | .oraDpx _ | .oraDplongy _ | .oraLongx _ | .sbcDpxind _ |
    .sbcSr _ | .sbcDp _ | .sbcDplong _ | .sbcImmM _ | .sbcAbs _ | .sbcLong _ | .sbcDpind _ | .sbcSriy _ |
    .sbcDpx _ | .sbcDplongy _ | .sbcLongx _ =>
    ⟨_, rfl, chargesGrid_of_read (by simp) rfl rfl rfl rfl⟩
  -- Stores and read-modify-writes, whose cost ignores a page cross.
  | .aslDp _ | .aslAbs _ | .aslDpx _ | .aslAbsx _ | .decDp _ | .decAbs _ | .decDpx _ | .decAbsx _ |
    .incDp _ | .incAbs _ | .incDpx _ | .incAbsx _ | .lsrDp _ | .lsrAbs _ | .lsrDpx _ | .lsrAbsx _ |
    .rolDp _ | .rolAbs _ | .rolDpx _ | .rolAbsx _ | .rorDp _ | .rorAbs _ | .rorDpx _ | .rorAbsx _ |
    .staDpxind _ | .staSr _ | .staDp _ | .staDplong _ | .staAbs _ | .staLong _ | .staDpindy _ |
    .staDpind _ | .staSriy _ | .staDpx _ | .staDplongy _ | .staAbsy _ | .staAbsx _ | .staLongx _ |
    .stxDp _ | .stxAbs _ | .stxDpy _ | .styDp _ | .styAbs _ | .styDpx _ | .stzDp _ | .stzDpx _ | .stzAbs _ |
    .stzAbsx _ | .trbDp _ | .trbAbs _ | .tsbDp _ | .tsbAbs _ =>
    ⟨_, rfl, chargesGrid_of_charge (by simp) rfl rfl rfl⟩
  -- Interrupt entry by software.
  | .brkSig8 _ | .copSig8 _ => ⟨_, rfl, chargesGrid_of_charge (enterInterrupt_cycles s _) rfl rfl rfl⟩
  -- The branches, whose condition and target are those of R462.
  | .bccRel8 _ | .bcsRel8 _ | .beqRel8 _ | .bmiRel8 _ | .bneRel8 _ | .bplRel8 _ | .braRel8 _ | .bvcRel8 _ |
    .bvsRel8 _ => ⟨_, rfl, chargesGrid_of_charge (by simp) rfl rfl rfl⟩
  -- The instructions without a data operand.
  | .aslAcc | .brlRel16 _ | .clcImp | .cldImp | .cliImp | .clvImp | .decAcc | .dexImp | .deyImp | .incAcc |
    .inxImp | .inyImp | .jmlLong _ | .jmlAbslongind _ | .jmpAbs _ | .jmpAbsind _ | .jmpAbsxind _ |
    .jslLong _ | .jsrAbs _ | .jsrAbsxind _ | .lsrAcc | .mvnBlk _ _ | .mvpBlk _ _ | .nopImp | .peaImm16 _ |
    .peiDpind _ | .perRel16 _ | .phaImp | .phbImp | .phdImp | .phkImp | .phpImp | .phxImp | .phyImp |
    .plaImp | .plbImp | .pldImp | .plpImp | .plxImp | .plyImp | .repImm8 _ | .rolAcc | .rorAcc | .rtiImp |
    .rtlImp | .rtsImp | .secImp | .sedImp | .seiImp | .sepImm8 _ | .stpImp | .taxImp | .tayImp | .tcdImp |
    .tcsImp | .tdcImp | .tscImp | .tsxImp | .txaImp | .txsImp | .txyImp | .tyaImp | .tyxImp | .waiImp |
    .wdmImm8 _ | .xbaImp | .xceImp =>
    ⟨_, rfl, chargesGrid_of_charge (by simp) rfl rfl rfl⟩

/-- Settles O14: `exec` is a function, so the state it leads to is the one whose charge is known; the bounds hold
cell by cell. -/
theorem cyclesFollowGrid : Obligations.CyclesFollowGrid := by
  refine ⟨fun i s t h => ?_, gridCost_bounds⟩
  obtain ⟨u, hu, hcharge⟩ := exec_chargesGrid s i
  obtain rfl : u = t := Host.Outcome.next.inj (hu.symm.trans h)
  exact hcharge

end Sys2Proof.Proofs
end

section
/-! PROOFS. The family 70_reset_and_hazards.md: reset (R450 to R455). -/

namespace Sys2Proof.Proofs

open Sys2Proof.Machine Sys2Proof.Safety

/-- The addresses of the reset vector (R452). -/
def resetVector : List Addr := [bank0 0xFFFC, bank0 0xFFFD]

/-- `reset` in full: the vector reads alike before the power-on pattern and after it, which keeps all that an answer
depends on (R76, R452). -/
theorem hostReset_fields (s : State) :
    hostReset s = { s.powerOn with
      pc := BitVec.ofNat 16 (littleEndian (answers s resetVector))
      trace := s.trace ++ readEvents s resetVector } := by
  have ha : answers s.powerOn resetVector = answers s resetVector := answers_congr rfl rfl rfl _
  have hr : readEvents s.powerOn resetVector = readEvents s resetVector := readEvents_congr rfl rfl rfl _
  rw [← ha, ← hr]
  exact hostReset_eq s

/-- Settles O9: the new core's memory is empty, so the vector reads as $0000, and `reset` keeps `Inv`. -/
theorem resetStateMeetsInvariants : Obligations.ResetStateMeetsInvariants := by
  have hreset : hostReset (State.new [] Config.defaultParams) = State.reset := rfl
  have hnew : Inv (State.new [] Config.defaultParams) := by decide
  exact ⟨hreset, hreset ▸ inv_hostReset hnew⟩

/-- Settles O15: the fields of `hostReset_fields`, where the vector's two bytes fit PC. -/
theorem resetAppliesPattern : Obligations.ResetAppliesPattern := by
  intro s t vector
  have hpc : (BitVec.ofNat 16 (littleEndian (answers s resetVector))).toNat =
      littleEndian (answers s resetVector) := by
    have hlt := littleEndian_lt (answers s resetVector)
    rw [answers_length] at hlt
    exact Nat.mod_eq_of_lt hlt
  rw [show t = _ from hostReset_fields s]
  exact ⟨rfl, rfl, rfl, rfl, rfl, rfl, rfl, rfl, rfl, rfl, rfl, hpc, rfl, rfl, rfl, rfl⟩

/-- The state after reset depends on the vector's two bytes, besides what reset keeps (R455). -/
theorem hostReset_of_answers {s u : State} (h : answers u resetVector = answers s resetVector) :
    hostReset u = { hostReset s with
      mem := u.mem, trace := u.trace ++ readEvents u resetVector, diag := u.diag, params := u.params } := by
  rw [hostReset_fields u, hostReset_fields s, h]
  rfl

/-- Settles O16: a second reset finds the same memory, so RAM answers the vector alike. -/
theorem resetIsIdempotent : Obligations.ResetIsIdempotent := by
  intro s u vector t
  refine ⟨hostReset_of_answers, rfl, fun hram => ?_⟩
  have htram : t.params.oracleRanges = [] := hram
  have hsame : answers t resetVector = answers s resetVector := by
    rw [answers_ram htram, answers_ram hram]; rfl
  exact hostReset_of_answers hsame

end Sys2Proof.Proofs
end
